-- ==== Sys2Proof/Word.lean ====
section
/-! DEFINITION. The word types of the block: the decode words of 30_encoding.md section 1, the stimulus word, the digit, and
the byte in which a word of any format is carried. -/

namespace Sys2Proof

/-- A decode word of any format, carried in the low bits of one byte (R50: the longest format has 5 bits). -/
abbrev Word := BitVec 8

/-- The Counter and the output `digit`: 4 bits, unsigned (R7, R32, `CTR_W = 4`). -/
abbrev Digit := BitVec 4

/-- RST word, 1 bit (R51). -/
abbrev RstWord := BitVec 1

/-- EDG word, 2 bits (R52). -/
abbrev EdgWord := BitVec 2

/-- BTN word, 5 bits (R53). -/
abbrev BtnWord := BitVec 5

/-- CTR word, 2 bits (R54). -/
abbrev CtrWord := BitVec 2

/-- RND word, 3 bits (R55). -/
abbrev RndWord := BitVec 3

/-- Stimulus word, 5 bits (R61). -/
abbrev StimWord := BitVec 5

end Sys2Proof
end

