-- ==== Sys2Proof/Config.lean ====
section
/-! DEFINITION. The configuration of the block (00_scope.md section 3) and the free draw of the inputs (R26). -/

namespace Sys2Proof

/-- `N_BUTTONS`, fixed (R6). -/
def nButtons : Nat := 2

/-- `DIGIT_MOD`, fixed (R7). -/
def digitMod : Nat := 10

/-- `INIT_DIGIT`, fixed (R8). -/
def initDigit : Digit := 0

/-- The parameters fixed when the block is built (R35). A model takes every one of them as an argument of its
configuration (00_scope.md section 3); no rule changes one. -/
structure Config where
  /-- `DEBOUNCE_TICKS` (R9). -/
  debounceTicks : Nat
  /-- `TMR_W`, the width of a timer slot (R11). -/
  tmrW : Nat
  /-- `SYNC_STAGES`, the flip-flops of each synchroniser (R12). -/
  syncStages : Nat
  /-- `TICK_PERIOD` in microseconds, OPEN; no rule of the block reads it (R10). Log entry 12. -/
  tickPeriodMicros : Nat
  /-- `CLK_HZ`, OPEN and without a default (`none`: not fixed); no rule reads it (R13). Log entry 12. -/
  clkHz : Option Nat
  deriving DecidableEq, Repr

namespace Config

/-- The default configuration: 50 ticks, 6 bits, 2 stages, a tick of 1 ms (R9 to R13). -/
def default : Config :=
  { debounceTicks := 50, tmrW := 6, syncStages := 2, tickPeriodMicros := 1000, clkHz := none }

/-- The free draw of the five inputs of the cycle with the given number, as a stimulus word (R61). It has no body: nothing
is known of it (R26: "a free draw ... under no law"). Log entry 3, DESIGN CHOICE (the form), safe. -/
opaque freeStim : Nat → BitVec 5

end Config

end Sys2Proof
end

