-- ==== Sys2Proof/Syntax.lean ====
section
/-! DEFINITION. The syntax of the block: channels, formats, the rows of each format, the operations (one constructor per row
of opcode_table.json), the inputs of a cycle, the statements of a stimulus script, and the reasons a decoder gives. -/

namespace Sys2Proof

/-- The two button channels (R5): `A` increments the Counter, `B` decrements it. -/
inductive Channel where
  | A
  | B
  deriving DecidableEq, Repr

/-- The other channel. -/
def Channel.other : Channel → Channel
  | .A => .B
  | .B => .A

/-- The five decode formats (R50). -/
inductive Format where
  | rst
  | edg
  | btn
  | ctr
  | rnd
  deriving DecidableEq, Repr

/-- The rows of format RST (30_encoding.md section 4). -/
inductive RstRow where
  | reset
  | run
  deriving DecidableEq, Repr

/-- The rows of format EDG. -/
inductive EdgRow where
  | fall
  | low
  | high
  deriving DecidableEq, Repr

/-- The rows of format BTN. -/
inductive BtnRow where
  | idle
  | arm
  | wait
  | count
  | confirm
  | drop
  deriving DecidableEq, Repr

/-- The rows of format CTR. -/
inductive CtrRow where
  | hold
  | inc
  | dec
  | both
  deriving DecidableEq, Repr

/-- The rows of format RND. -/
inductive RndRow where
  | idle
  | wait
  | take
  | post
  deriving DecidableEq, Repr

/-- The operations of the block: one constructor per row of opcode_table.json. The EDG and BTN rows are the same for both
channels and are instantiated once per channel (30_encoding.md section 4). No row has an immediate (R57). -/
inductive Instr where
  /-- `RESET` (R140) -/
  | reset
  /-- `RUN` (R56) -/
  | run
  /-- `EDG.FALL` (R73) -/
  | edgFall (x : Channel)
  /-- `EDG.LOW` (R74) -/
  | edgLow (x : Channel)
  /-- `EDG.HIGH` (R75) -/
  | edgHigh (x : Channel)
  /-- `BTN.IDLE` (R81) -/
  | btnIdle (x : Channel)
  /-- `BTN.ARM` (R82) -/
  | btnArm (x : Channel)
  /-- `BTN.WAIT` (R83) -/
  | btnWait (x : Channel)
  /-- `BTN.COUNT` (R84) -/
  | btnCount (x : Channel)
  /-- `BTN.CONFIRM` (R85) -/
  | btnConfirm (x : Channel)
  /-- `BTN.DROP` (R86) -/
  | btnDrop (x : Channel)
  /-- `CTR.HOLD` (R102) -/
  | ctrHold
  /-- `CTR.INC` (R103) -/
  | ctrInc
  /-- `CTR.DEC` (R104) -/
  | ctrDec
  /-- `CTR.BOTH` (R105) -/
  | ctrBoth
  /-- `RND.IDLE` (R111) -/
  | rndIdle
  /-- `RND.WAIT` (R112) -/
  | rndWait
  /-- `RND.TAKE` (R113) -/
  | rndTake
  /-- `RND.POST` (R114) -/
  | rndPost
  deriving DecidableEq, Repr

/-- The five inputs of one cycle (10_state.md section 1, R21 to R24). A pin is asserted when it is low (R22): `btnAN` is
`true` for a released button A. -/
structure Inputs where
  rst : Bool
  tick : Bool
  btnAN : Bool
  btnBN : Bool
  rndReady : Bool
  deriving DecidableEq, Repr

/-- The core statements of a script (R62). `set` names any subset of the three sticky levels. -/
inductive Stmt where
  | set (a b rdy : Option Bool)
  | rst
  | cyc
  | cycTick
  deriving DecidableEq, Repr

/-- A script line: a core statement, or one of the pseudo-statements of R63. -/
inductive Line where
  | core (st : Stmt)
  | wait (n : Nat)
  | ticks (n : Nat)
  | press (x : Channel)
  | release (x : Channel)
  | stall
  | unstall
  deriving DecidableEq, Repr

/-- Why a word is no word of its format. -/
inductive DecodeError where
  /-- The byte has a bit set above the length of the format (R50, R51 to R55). -/
  | tooWide (f : Format)
  /-- The byte has a bit set above the five bits of a stimulus word (R61). -/
  | stimTooWide
  /-- The character is no hexadecimal digit (R61). -/
  | notHex
  deriving DecidableEq, Repr

/-- Why a script text is refused: the line (counted from 1) that is no statement of R62 or R63. -/
inductive ScriptError where
  | badLine (n : Nat)
  deriving DecidableEq, Repr

/-- The ways a configuration breaks rule R14. -/
inductive ConfigError where
  /-- `DEBOUNCE_TICKS < 1` -/
  | delayTooShort
  /-- `DEBOUNCE_TICKS > 2^TMR_W - 1` -/
  | delayTooLong
  /-- `TMR_W < 1` -/
  | timerWidthZero
  /-- `SYNC_STAGES < 1` -/
  | noSyncStage
  deriving DecidableEq, Repr

end Sys2Proof
end

