-- ==== Sys2Proof/WellFormed.lean ====
section
/-! DEFINITION. What is well formed: a configuration (R14) and a word of a format (R50). An operation of `Instr` has no
immediate and no numbered operand (R57), so every `Instr` is well formed and there is nothing to check of one. -/

namespace Sys2Proof

/-- The length of a format in bits (R50). -/
def Format.bits : Format → Nat
  | .rst => 1
  | .edg => 2
  | .btn => 5
  | .ctr => 2
  | .rnd => 3

/-- A byte is a word of the format when no bit above the format's length is set (R50 to R55). -/
def Format.wellFormed (f : Format) (w : Word) : Bool := decide (w.toNat < 2 ^ f.bits)

/-- The clauses of rule R14 that a configuration breaks. -/
def Config.violations (c : Config) : List ConfigError :=
  (if 1 ≤ c.debounceTicks then [] else [.delayTooShort]) ++
  (if c.debounceTicks ≤ 2 ^ c.tmrW - 1 then [] else [.delayTooLong]) ++
  (if 1 ≤ c.tmrW then [] else [.timerWidthZero]) ++
  (if 1 ≤ c.syncStages then [] else [.noSyncStage])

/-- A configuration is legal only when all the clauses of rule R14 hold. -/
def Config.legal (c : Config) : Bool := c.violations.isEmpty

end Sys2Proof
end

