-- ==== Sys2Proof/Decode.lean ====
section
/-! DEFINITION. Decoding and encoding: the row a decode word selects (30_encoding.md section 4), the opcode map with its match
and mask values, the encoder, and the stimulus words (R61).

The decoder is written by cases on the named bits of a word, so that it is total and its rows are disjoint by its form (R58);
the opcode map (`Instr.matchBits`, `Instr.maskBits`) is written beside it from the table. That the two agree is a claim. -/

namespace Sys2Proof

/-! ## The decoder -/

/-- The row of an RST word `{rst}` (R51). -/
def decodeRst (w : RstWord) : RstRow :=
  match w.getLsbD 0 with
  | true => .reset
  | false => .run

/-- The row of an EDG word `{prev_X, lvl_X}` (R52, R73 to R75). -/
def decodeEdg (w : EdgWord) : EdgRow :=
  match w.getLsbD 1, w.getLsbD 0 with
  | true, false => .fall
  | false, false => .low
  | _, true => .high

/-- The row of a BTN word `{st_X, fall_X, tick, tz_X, lvl_X}` (R53, R81 to R86). -/
def decodeBtn (w : BtnWord) : BtnRow :=
  match w.getLsbD 4, w.getLsbD 3, w.getLsbD 2, w.getLsbD 1, w.getLsbD 0 with
  | false, false, _, _, _ => .idle
  | false, true, _, _, _ => .arm
  | true, _, false, _, _ => .wait
  | true, _, true, false, _ => .count
  | true, _, true, true, false => .confirm
  | true, _, true, true, true => .drop

/-- The row of a CTR word `{conf_A, conf_B}` (R54, R102 to R105). -/
def decodeCtr (w : CtrWord) : CtrRow :=
  match w.getLsbD 1, w.getLsbD 0 with
  | false, false => .hold
  | true, false => .inc
  | false, true => .dec
  | true, true => .both

/-- The row of an RND word `{upd, rnd_valid, rnd_ready}` (R55, R111 to R114). -/
def decodeRnd (w : RndWord) : RndRow :=
  match w.getLsbD 2, w.getLsbD 1, w.getLsbD 0 with
  | false, false, _ => .idle
  | false, true, false => .wait
  | false, true, true => .take
  | true, _, _ => .post

/-- The operation of an RST row. -/
def RstRow.instr : RstRow → Instr
  | .reset => .reset
  | .run => .run

/-- The operation of an EDG row on a channel. -/
def EdgRow.instr (x : Channel) : EdgRow → Instr
  | .fall => .edgFall x
  | .low => .edgLow x
  | .high => .edgHigh x

/-- The operation of a BTN row on a channel. -/
def BtnRow.instr (x : Channel) : BtnRow → Instr
  | .idle => .btnIdle x
  | .arm => .btnArm x
  | .wait => .btnWait x
  | .count => .btnCount x
  | .confirm => .btnConfirm x
  | .drop => .btnDrop x

/-- The operation of a CTR row. -/
def CtrRow.instr : CtrRow → Instr
  | .hold => .ctrHold
  | .inc => .ctrInc
  | .dec => .ctrDec
  | .both => .ctrBoth

/-- The operation of an RND row. -/
def RndRow.instr : RndRow → Instr
  | .idle => .rndIdle
  | .wait => .rndWait
  | .take => .rndTake
  | .post => .rndPost

/-- The operation a byte selects when it is read as a word of the format `f`; for the per-channel formats EDG and BTN, on
channel `x` (the channel is no bit of the word: there is "one word per channel", R52, R53). A byte with a bit above the length
of the format is refused by name. -/
def decode (f : Format) (x : Channel) (w : Word) : Except DecodeError Instr :=
  if f.wellFormed w then
    match f with
    | .rst => .ok (decodeRst (w.setWidth 1)).instr
    | .edg => .ok ((decodeEdg (w.setWidth 2)).instr x)
    | .btn => .ok ((decodeBtn (w.setWidth 5)).instr x)
    | .ctr => .ok (decodeCtr (w.setWidth 2)).instr
    | .rnd => .ok (decodeRnd (w.setWidth 3)).instr
  else .error (.tooWide f)

/-! ## The opcode map (30_encoding.md section 4) and the encoder -/

/-- The format of a row. -/
def Instr.format : Instr → Format
  | .reset | .run => .rst
  | .edgFall _ | .edgLow _ | .edgHigh _ => .edg
  | .btnIdle _ | .btnArm _ | .btnWait _ | .btnCount _ | .btnConfirm _ | .btnDrop _ => .btn
  | .ctrHold | .ctrInc | .ctrDec | .ctrBoth => .ctr
  | .rndIdle | .rndWait | .rndTake | .rndPost => .rnd

/-- The channel a per-channel row is instantiated for; `none` for the rows of RST, CTR and RND. -/
def Instr.channel : Instr → Option Channel
  | .edgFall x | .edgLow x | .edgHigh x => some x
  | .btnIdle x | .btnArm x | .btnWait x | .btnCount x | .btnConfirm x | .btnDrop x => some x
  | .reset | .run | .ctrHold | .ctrInc | .ctrDec | .ctrBoth | .rndIdle | .rndWait | .rndTake | .rndPost => none

/-- The "match" column. -/
def Instr.matchBits : Instr → Word
  | .reset => 0b1
  | .run => 0b0
  | .edgFall _ => 0b10
  | .edgLow _ => 0b00
  | .edgHigh _ => 0b01
  | .btnIdle _ => 0b00000
  | .btnArm _ => 0b01000
  | .btnWait _ => 0b10000
  | .btnCount _ => 0b10100
  | .btnConfirm _ => 0b10110
  | .btnDrop _ => 0b10111
  | .ctrHold => 0b00
  | .ctrInc => 0b10
  | .ctrDec => 0b01
  | .ctrBoth => 0b11
  | .rndIdle => 0b000
  | .rndWait => 0b010
  | .rndTake => 0b011
  | .rndPost => 0b100

/-- The "mask" column. -/
def Instr.maskBits : Instr → Word
  | .reset => 0b1
  | .run => 0b1
  | .edgFall _ => 0b11
  | .edgLow _ => 0b11
  | .edgHigh _ => 0b01
  | .btnIdle _ => 0b11000
  | .btnArm _ => 0b11000
  | .btnWait _ => 0b10100
  | .btnCount _ => 0b10110
  | .btnConfirm _ => 0b10111
  | .btnDrop _ => 0b10111
  | .ctrHold => 0b11
  | .ctrInc => 0b11
  | .ctrDec => 0b11
  | .ctrBoth => 0b11
  | .rndIdle => 0b110
  | .rndWait => 0b111
  | .rndTake => 0b111
  | .rndPost => 0b100

/-- `match(w, m, k)` of rule R18: `(w AND k) = m`. -/
def rowMatches (w m k : Word) : Bool := w &&& k == m

/-- The rows of a format, those of EDG and BTN for channel `x`, in the order of the opcode map. -/
def Format.rows (x : Channel) : Format → List Instr
  | .rst => [.reset, .run]
  | .edg => [.edgFall x, .edgLow x, .edgHigh x]
  | .btn => [.btnIdle x, .btnArm x, .btnWait x, .btnCount x, .btnConfirm x, .btnDrop x]
  | .ctr => [.ctrHold, .ctrInc, .ctrDec, .ctrBoth]
  | .rnd => [.rndIdle, .rndWait, .rndTake, .rndPost]

/-- The bits of a format's words. -/
def Format.bitsMask (f : Format) : Word := BitVec.ofNat 8 (2 ^ f.bits - 1)

/-- The words of a row: its match value, with the bits its mask leaves out (within the format's length) taken from `free`. -/
def encodeWith (free : Word) (i : Instr) : Word :=
  i.matchBits ||| (free &&& ~~~i.maskBits &&& i.format.bitsMask)

/-- The word of a row with every masked-out bit 0. Log entry 11, DESIGN CHOICE, safe: `encodeWith` gives all of them. -/
def encode (i : Instr) : Word := encodeWith 0 i

/-! ## Stimulus words (R61) -/

/-- The inputs a stimulus word gives: bits `{rst, tick, btn_a_n, btn_b_n, rnd_ready}` (R61). -/
def decodeStim (w : StimWord) : Inputs :=
  { rst := w.getLsbD 4, tick := w.getLsbD 3, btnAN := w.getLsbD 2, btnBN := w.getLsbD 1, rndReady := w.getLsbD 0 }

/-- The stimulus word of the inputs of a cycle (R61). -/
def encodeStim (i : Inputs) : StimWord :=
  BitVec.ofBool i.rst ++ BitVec.ofBool i.tick ++ BitVec.ofBool i.btnAN ++ BitVec.ofBool i.btnBN ++
    BitVec.ofBool i.rndReady

/-- A byte read as a stimulus word; a byte with a bit above the five is refused by name. -/
def decodeStimByte (w : Word) : Except DecodeError Inputs :=
  if w.toNat < 32 then .ok (decodeStim (w.setWidth 5)) else .error .stimTooWide

/-- The value of a hexadecimal digit. -/
def hexValue (c : Char) : Except DecodeError Nat :=
  if '0' ≤ c ∧ c ≤ '9' then .ok (c.toNat - '0'.toNat)
  else if 'A' ≤ c ∧ c ≤ 'F' then .ok (c.toNat - 'A'.toNat + 10)
  else if 'a' ≤ c ∧ c ≤ 'f' then .ok (c.toNat - 'a'.toNat + 10)
  else .error .notHex

/-- A stimulus word "written as two hexadecimal digits" (R61), the high digit first. -/
def decodeStimHex (hi lo : Char) : Except DecodeError Inputs :=
  match hexValue hi, hexValue lo with
  | .ok h, .ok l => decodeStimByte (BitVec.ofNat 8 (16 * h + l))
  | .error e, _ => .error e
  | _, .error e => .error e

/-- The pin level of channel `x`: `btn_a_n` or `btn_b_n` (R22). -/
def Inputs.btn (i : Inputs) : Channel → Bool
  | .A => i.btnAN
  | .B => i.btnBN

/-! ## The host's table words -/

/-- The format in which a table word is read. The words of different formats coincide, and a word count in whole bytes does
not tell the formats apart: a word given with its exact length is read in the format of that length (`CTR` for 2 bits), any
other in the shortest format that holds it (`CTR` before `EDG`). Log entry 9, DESIGN CHOICE. -/
def tableFormat (nbits w : Nat) : Option Format :=
  if 2 ^ nbits ≤ w then none
  else
    match nbits with
    | 1 => some .rst
    | 2 => some .ctr
    | 3 => some .rnd
    | 5 => some .btn
    | _ => if w < 2 then some .rst else if w < 4 then some .ctr else if w < 8 then some .rnd
           else if w < 32 then some .btn else none

/-- The operation the decoder reads from a table word, a per-channel row on channel A (log entry 9, DESIGN CHOICE). -/
def decodeTableWord (nbits w : Nat) : Option Instr :=
  match tableFormat nbits w with
  | none => none
  | some f =>
    match decode f .A (BitVec.ofNat 8 w) with
    | .ok i => some i
    | .error _ => none

end Sys2Proof
end

