-- ==== Sys2Proof/Machine/State.lean ====
section
/-! DEFINITION. The state of the block (10_state.md section 2), the reasons a step stops, and the state right after reset
(R140). State is plain data. -/

namespace Sys2Proof.Machine

open Sys2Proof

/-- The state of a channel's debounce machine, `st_X` (R27): `idle` is 0, edge detection armed; `pending` is 1,
PendingDebounce, edge detection disarmed and the timer running. -/
inductive ChanState where
  | idle
  | pending
  deriving DecidableEq, Repr

/-- The registers of one channel (10_state.md section 2). -/
structure Chan where
  /-- `st_X` (R27) -/
  st : ChanState
  /-- `tmr_X`, an unsigned count of `TMR_W` bits (R28); every write narrows to that width. -/
  tmr : Nat
  /-- `sync_X[0..SYNC_STAGES-1]`, stage 0 first (R29); 1 is the released level. -/
  sync : List Bool
  /-- `prev_X` (R29) -/
  prev : Bool
  deriving DecidableEq, Repr

/-- All the registers of the block (R30: "Its whole state is the registers of rules R27, R28, R29, R32 and R33"). -/
structure Regs where
  chA : Chan
  chB : Chan
  /-- `ctr`, the Counter (R32) -/
  ctr : Digit
  /-- `rnd_valid` (R33) -/
  rndValid : Bool
  deriving DecidableEq, Repr

/-- The cycle in progress (the model's own, log entry 2): what the registers will hold after the coming edge (the targets of
`<-`, R16), and the combinational signals that one row yields and another reads. -/
structure Work where
  /-- the next-state image: the values of `S_(t+1)` (R16) -/
  nxt : Regs
  /-- `fall_A` (R73 to R75) -/
  fallA : Bool
  /-- `fall_B` -/
  fallB : Bool
  /-- `conf_A` (R81 to R86) -/
  confA : Bool
  /-- `conf_B` -/
  confB : Bool
  deriving DecidableEq, Repr

/-- The state of the machine. `regs` is `S_t`, everything the spec gives the block; the other fields are the configuration
and the model's own (INVENTORY.md, State). -/
structure State where
  /-- the parameters fixed when the block is built (R35); no step changes them (log entry 5) -/
  cfg : Config
  /-- the registers, `S_t` (R16) -/
  regs : Regs
  /-- the cycle in progress (log entry 2) -/
  work : Work
  /-- the prescribed inputs of the coming cycles, this cycle's first (log entry 3) -/
  script : List Inputs
  /-- the number of cycles made; picks the free draw of a cycle with no prescribed inputs (log entry 3) -/
  cycle : Nat
  /-- the value the renderer took at the last handshake (R110), an observation no rule reads (log entry 4) -/
  lastTaken : Option Digit
  deriving DecidableEq, Repr

/-- The reasons a step faults: there are none (R120: "The block raises no exception and has no fault or error output"; R121:
"no fault"). -/
inductive Fault where
  deriving DecidableEq, Repr

/-- The reasons the model has no meaning for an operation. -/
inductive Refusal where
  /-- Raised by `exec` for an operation with no meaning yet; no arm raises it. Safe. -/
  | notModelled (mnemonic : String)
  /-- Raised by every operation on a configuration that breaks R14: "A model refuses an illegal configuration before any
  step (it has no step at all)". Safe. -/
  | illegalConfig
  /-- Raised by every operation on a record that is no state of the block: its registers do not have the widths its
  configuration gives them. No run from reset reaches one (R39, R121 item 2; log entry 6). Safe. -/
  | misfit
  deriving DecidableEq, Repr

/-- A channel's registers after reset (R27, R28, R29, R140). -/
def Chan.reset (c : Config) : Chan :=
  { st := .idle, tmr := 0, sync := List.replicate c.syncStages true, prev := true }

/-- The registers after reset (R140). -/
def Regs.reset (c : Config) : Regs :=
  { chA := Chan.reset c, chB := Chan.reset c, ctr := initDigit, rndValid := true }

/-- Between cycles: the next-state image equals the registers and no signal is driven (log entry 2). -/
def Work.closed (r : Regs) : Work :=
  { nxt := r, fallA := false, fallB := false, confA := false, confB := false }

/-- The machine right after reset, for any configuration: the registers as R140 says, nothing prescribed, nothing taken. -/
def State.resetWith (c : Config) : State :=
  { cfg := c, regs := Regs.reset c, work := Work.closed (Regs.reset c), script := [], cycle := 0, lastTaken := none }

/-- The machine right after reset, in the default configuration (R9 to R13, R140). -/
def State.reset : State := State.resetWith Config.default

end Sys2Proof.Machine
end

