-- ==== Sys2Proof/Machine/Ops.lean ====
section
/-! DEFINITION. The shared operations: reading the inputs of a cycle, the writes `r <- v` (R16: into the next-state image),
driving the combinational signals, opening a cycle, the clock edge, and the guard every operation starts with.

There is no operation that takes an exception and none that returns from one: the block has no trap entry and no trap return
(R125, R126), no memory (R40) and no register file (R30). -/

namespace Sys2Proof.Machine

open Sys2Proof

/-! ## Registers by channel -/

/-- The registers of channel `x`. -/
def Regs.chan (r : Regs) : Channel → Chan
  | .A => r.chA
  | .B => r.chB

/-- Replace the registers of channel `x`. -/
def Regs.setChan (r : Regs) (x : Channel) (c : Chan) : Regs :=
  match x with
  | .A => { r with chA := c }
  | .B => { r with chB := c }

/-- The signal `fall_X` of the cycle in progress. -/
def Work.fall (k : Work) : Channel → Bool
  | .A => k.fallA
  | .B => k.fallB

/-- The signal `conf_X` of the cycle in progress. -/
def Work.conf (k : Work) : Channel → Bool
  | .A => k.confA
  | .B => k.confB

/-! ## The inputs of a cycle -/

/-- The inputs `I_t` of the coming cycle number `k` counted from now (`k = 0` is this cycle): prescribed where the script
reaches, else the free draw of that cycle (R26; log entry 3). -/
def State.inputsAt (s : State) (k : Nat) : Inputs :=
  match s.script[k]? with
  | some i => i
  | none => decodeStim (Config.freeStim (s.cycle + k))

/-- The inputs of this cycle. -/
def State.inputs (s : State) : Inputs := s.inputsAt 0

/-! ## Writes: `r <- v` gives `r` the value `v` in `S_(t+1)` (R16) -/

/-- Change the next-state image. -/
def State.onNxt (s : State) (f : Regs → Regs) : State :=
  { s with work := { s.work with nxt := f s.work.nxt } }

/-- Change channel `x` of the next-state image. -/
def State.onChan (s : State) (x : Channel) (f : Chan → Chan) : State :=
  s.onNxt fun r => r.setChan x (f (r.chan x))

/-- `st_X <- v` -/
def State.writeSt (s : State) (x : Channel) (v : ChanState) : State := s.onChan x fun c => { c with st := v }

/-- `zext_TMR_W(n)`: `n` as an unsigned value of `TMR_W` bits (R15, R57). -/
def zextTmr (c : Config) (n : Nat) : Nat := n % 2 ^ c.tmrW

/-- `tmr_X <- v`, narrowed to the register's `TMR_W` bits (R28). -/
def State.writeTmr (s : State) (x : Channel) (v : Nat) : State := s.onChan x fun c => { c with tmr := zextTmr s.cfg v }

/-- `sync_X[*] <- v` -/
def State.writeSync (s : State) (x : Channel) (v : List Bool) : State := s.onChan x fun c => { c with sync := v }

/-- `prev_X <- v` -/
def State.writePrev (s : State) (x : Channel) (v : Bool) : State := s.onChan x fun c => { c with prev := v }

/-- `ctr <- v` (R44: the whole value at once) -/
def State.writeCtr (s : State) (v : Digit) : State := s.onNxt fun r => { r with ctr := v }

/-- `rnd_valid <- v` -/
def State.writeRndValid (s : State) (v : Bool) : State := s.onNxt fun r => { r with rndValid := v }

/-- `tmr_X - 1`, unsigned in `TMR_W` bits (R84). -/
def tmrPred (c : Config) (n : Nat) : Nat := zextTmr c (n + (2 ^ c.tmrW - 1))

/-! ## Combinational signals: `name := expression` (R16) -/

/-- `fall_X := b` -/
def State.driveFall (s : State) (x : Channel) (b : Bool) : State :=
  match x with
  | .A => { s with work := { s.work with fallA := b } }
  | .B => { s with work := { s.work with fallB := b } }

/-- `conf_X := b` -/
def State.driveConf (s : State) (x : Channel) (b : Bool) : State :=
  match x with
  | .A => { s with work := { s.work with confA := b } }
  | .B => { s with work := { s.work with confB := b } }

/-- The renderer takes the value `v` at a handshake (R110; log entry 4). -/
def State.rendererTakes (s : State) (v : Digit) : State := { s with lastTaken := some v }

/-! ## The cycle -/

/-- The start of a cycle: a register no rule writes keeps its value (R16), and no signal is driven yet. -/
def State.openCycle (s : State) : State := { s with work := Work.closed s.regs }

/-- The rising edge that ends the cycle: every register takes its new value at the same edge (R16, R46); the cycle's inputs
are used up. -/
def State.clockEdge (s : State) : State :=
  { s with regs := s.work.nxt, work := Work.closed s.work.nxt, script := s.script.tail, cycle := s.cycle + 1 }

/-! ## The guard of every operation -/

/-- A channel's registers have the widths the configuration gives them (R28: `TMR_W` bits; R29: `SYNC_STAGES` stages). -/
def Chan.fits (cfg : Config) (c : Chan) : Bool := decide (c.tmr < 2 ^ cfg.tmrW) && c.sync.length == cfg.syncStages

/-- The registers have the widths the configuration gives them. -/
def Regs.fits (cfg : Config) (r : Regs) : Bool := r.chA.fits cfg && r.chB.fits cfg

/-- Every register of the state has its width. -/
def State.fits (s : State) : Bool := s.regs.fits s.cfg && s.work.nxt.fits s.cfg

/-- The state of a legally configured block (R14), with every register of its width. -/
def State.wf (s : State) : Bool := s.cfg.legal && s.fits

/-- Every operation has a meaning exactly on the states of a legally configured block (R14, R121). -/
def onBlock (s : State) (effect : State → State) : Host.Outcome State Fault Refusal :=
  if s.cfg.legal then
    if s.fits then .next (effect s) else .refused .misfit
  else .refused .illegalConfig

end Sys2Proof.Machine
end

