-- ==== Sys2Proof/Machine/Flags.lean ====
section
/-! DEFINITION. The one-bit signals computed from the registers, the inputs and the signals of the cycle. The block has no
flags, condition codes or predicates (R34); these are the signals that a processor's model would compute as flags. -/

namespace Sys2Proof.Machine

open Sys2Proof

/-- `tz_X`: channel X's timer slot has run out (R80). -/
def State.tz (s : State) (x : Channel) : Bool := (s.regs.chan x).tmr == 0

/-- `lvl_X := sync_X[SYNC_STAGES-1]`, the synchronised pin level (R72). The default is never read by an operation: the guard
`onBlock` refuses a synchroniser that has not `SYNC_STAGES ≥ 1` stages. -/
def State.lvl (s : State) (x : Channel) : Bool := (s.regs.chan x).sync.getD (s.cfg.syncStages - 1) true

/-- `upd := conf_A OR conf_B` (R110). -/
def State.upd (s : State) : Bool := s.work.confA || s.work.confB

/-- `handshake := rnd_valid AND rnd_ready AND NOT rst` (R110). -/
def State.handshake (s : State) : Bool := s.regs.rndValid && s.inputs.rndReady && !s.inputs.rst

end Sys2Proof.Machine
end

