-- ==== Sys2Proof/Machine/Operands.lean ====
section
/-! DEFINITION. The operands of the rows: the decode words of a cycle (30_encoding.md section 1), built from the registers, the
inputs and the signals of that cycle only (R50), and the output ports (R25). -/

namespace Sys2Proof.Machine

open Sys2Proof

/-- The bit that encodes a channel state: 0 Idle, 1 PendingDebounce (R27). -/
def ChanState.bit : ChanState → Bool
  | .idle => false
  | .pending => true

/-- RST word `{rst}` (R51). -/
def State.rstWord (s : State) : RstWord := BitVec.ofBool s.inputs.rst

/-- EDG word of channel X, `{prev_X, lvl_X}` (R52). -/
def State.edgWord (s : State) (x : Channel) : EdgWord :=
  BitVec.ofBool (s.regs.chan x).prev ++ BitVec.ofBool (s.lvl x)

/-- BTN word of channel X, `{st_X, fall_X, tick, tz_X, lvl_X}` (R53). -/
def State.btnWord (s : State) (x : Channel) : BtnWord :=
  BitVec.ofBool (s.regs.chan x).st.bit ++ BitVec.ofBool (s.work.fall x) ++ BitVec.ofBool s.inputs.tick ++
    BitVec.ofBool (s.tz x) ++ BitVec.ofBool (s.lvl x)

/-- CTR word `{conf_A, conf_B}` (R54). -/
def State.ctrWord (s : State) : CtrWord := BitVec.ofBool s.work.confA ++ BitVec.ofBool s.work.confB

/-- RND word `{upd, rnd_valid, rnd_ready}` (R55). -/
def State.rndWord (s : State) : RndWord :=
  BitVec.ofBool s.upd ++ BitVec.ofBool s.regs.rndValid ++ BitVec.ofBool s.inputs.rndReady

/-! ## Output ports (R25): each is a register or a copy of one -/

/-- Output `digit := ctr`. -/
def State.digit (s : State) : Digit := s.regs.ctr

/-- Output `rnd_valid`. -/
def State.rndValidOut (s : State) : Bool := s.regs.rndValid

/-- Outputs `pend_a := st_A` and `pend_b := st_B`. -/
def State.pend (s : State) (x : Channel) : Bool := (s.regs.chan x).st.bit

end Sys2Proof.Machine
end

