-- ==== Sys2Proof/Machine/Button.lean ====
section
/-! DEFINITION. The debounce state machine and its timer slot (41_debounce_fsm.md): the BTN rows. Each writes `st_X` and `tmr_X`
and yields `conf_X`. -/

namespace Sys2Proof.Machine

open Sys2Proof

/-- What every BTN row does: `st_X <- st`, `tmr_X <- tmr`, `conf_X := conf`. -/
def State.btnRow (s : State) (x : Channel) (st : ChanState) (tmr : Nat) (conf : Bool) : State :=
  ((s.writeSt x st).writeTmr x tmr).driveConf x conf

/-- The effect of `BTN.IDLE` (R81). -/
def btnIdle (x : Channel) (s : State) : State := s.btnRow x .idle 0 false

/-- The effect of `BTN.ARM` (R82): disarm and schedule the one-shot delay. -/
def btnArm (x : Channel) (s : State) : State := s.btnRow x .pending (zextTmr s.cfg s.cfg.debounceTicks) false

/-- The effect of `BTN.WAIT` (R83). -/
def btnWait (x : Channel) (s : State) : State := s.btnRow x .pending (s.regs.chan x).tmr false

/-- The effect of `BTN.COUNT` (R84). -/
def btnCount (x : Channel) (s : State) : State := s.btnRow x .pending (tmrPred s.cfg (s.regs.chan x).tmr) false

/-- The effect of `BTN.CONFIRM` (R85). -/
def btnConfirm (x : Channel) (s : State) : State := s.btnRow x .idle 0 true

/-- The effect of `BTN.DROP` (R86). -/
def btnDrop (x : Channel) (s : State) : State := s.btnRow x .idle 0 false

/-- `BTN.IDLE` (R81) -/
def execBtnIdle (x : Channel) (s : State) : Host.Outcome State Fault Refusal := onBlock s (btnIdle x)

/-- `BTN.ARM` (R82) -/
def execBtnArm (x : Channel) (s : State) : Host.Outcome State Fault Refusal := onBlock s (btnArm x)

/-- `BTN.WAIT` (R83) -/
def execBtnWait (x : Channel) (s : State) : Host.Outcome State Fault Refusal := onBlock s (btnWait x)

/-- `BTN.COUNT` (R84) -/
def execBtnCount (x : Channel) (s : State) : Host.Outcome State Fault Refusal := onBlock s (btnCount x)

/-- `BTN.CONFIRM` (R85) -/
def execBtnConfirm (x : Channel) (s : State) : Host.Outcome State Fault Refusal := onBlock s (btnConfirm x)

/-- `BTN.DROP` (R86) -/
def execBtnDrop (x : Channel) (s : State) : Host.Outcome State Fault Refusal := onBlock s (btnDrop x)

end Sys2Proof.Machine
end

