-- ==== Sys2Proof/Machine/Counter.lean ====
section
/-! DEFINITION. The Counter update (42_counter.md): the counter functions and the CTR rows. -/

namespace Sys2Proof.Machine

open Sys2Proof

/-- `inc10(x) := if x >= 9 then 0 else x + 1` (R100). -/
def inc10 (x : Digit) : Digit := if 9 ≤ x.toNat then 0 else x + 1

/-- `dec10(x) := if x = 0 or x >= 10 then 9 else x - 1` (R101). -/
def dec10 (x : Digit) : Digit := if x.toNat = 0 ∨ 10 ≤ x.toNat then 9 else x - 1

/-- The effect of `CTR.HOLD` (R102): `ctr <- ctr`. -/
def ctrHold (s : State) : State := s.writeCtr s.regs.ctr

/-- The effect of `CTR.INC` (R103). -/
def ctrInc (s : State) : State := s.writeCtr (inc10 s.regs.ctr)

/-- The effect of `CTR.DEC` (R104). -/
def ctrDec (s : State) : State := s.writeCtr (dec10 s.regs.ctr)

/-- The effect of `CTR.BOTH` (R105): A's update, then B's, in one cycle. -/
def ctrBoth (s : State) : State := s.writeCtr (dec10 (inc10 s.regs.ctr))

/-- `CTR.HOLD` (R102) -/
def execCtrHold (s : State) : Host.Outcome State Fault Refusal := onBlock s ctrHold

/-- `CTR.INC` (R103) -/
def execCtrInc (s : State) : Host.Outcome State Fault Refusal := onBlock s ctrInc

/-- `CTR.DEC` (R104) -/
def execCtrDec (s : State) : Host.Outcome State Fault Refusal := onBlock s ctrDec

/-- `CTR.BOTH` (R105) -/
def execCtrBoth (s : State) : Host.Outcome State Fault Refusal := onBlock s ctrBoth

end Sys2Proof.Machine
end

