-- ==== Sys2Proof/Machine/Edge.lean ====
section
/-! DEFINITION. Input synchronisation and falling-edge detection (40_edge_detect.md): SYNC, PREV and the EDG rows. -/

namespace Sys2Proof.Machine

open Sys2Proof

/-- The synchroniser after it shifts a pin level in: stage 0 takes the level, stage `i` takes stage `i-1` (R70). -/
def shiftIn (c : Config) (level : Bool) (sync : List Bool) : List Bool := (level :: sync).take c.syncStages

/-- `SYNC` (R70), performed in every RUN cycle. -/
def syncShift (x : Channel) (s : State) : State :=
  s.writeSync x (shiftIn s.cfg (s.inputs.btn x) (s.regs.chan x).sync)

/-- `PREV` (R71), performed in every RUN cycle. -/
def prevLatch (x : Channel) (s : State) : State := s.writePrev x (s.lvl x)

/-- The effect of `EDG.FALL` (R73): `fall_X := 1`. -/
def edgFall (x : Channel) (s : State) : State := s.driveFall x true

/-- The effect of `EDG.LOW` (R74): `fall_X := 0`. -/
def edgLow (x : Channel) (s : State) : State := s.driveFall x false

/-- The effect of `EDG.HIGH` (R75): `fall_X := 0`. -/
def edgHigh (x : Channel) (s : State) : State := s.driveFall x false

/-- `EDG.FALL` (R73) -/
def execEdgFall (x : Channel) (s : State) : Host.Outcome State Fault Refusal := onBlock s (edgFall x)

/-- `EDG.LOW` (R74) -/
def execEdgLow (x : Channel) (s : State) : Host.Outcome State Fault Refusal := onBlock s (edgLow x)

/-- `EDG.HIGH` (R75) -/
def execEdgHigh (x : Channel) (s : State) : Host.Outcome State Fault Refusal := onBlock s (edgHigh x)

end Sys2Proof.Machine
end

