-- ==== Sys2Proof/Machine/Render.lean ====
section
/-! DEFINITION. The render request (43_render_request.md): the RND rows. At a handshake the renderer takes `digit`, which is
`ctr` of `S_t`, the value before any update made at the same edge (R110). -/

namespace Sys2Proof.Machine

open Sys2Proof

/-- The effect of `RND.IDLE` (R111). -/
def rndIdle (s : State) : State := s.writeRndValid false

/-- The effect of `RND.WAIT` (R112). -/
def rndWait (s : State) : State := s.writeRndValid true

/-- The effect of `RND.TAKE` (R113): a handshake, and the request is withdrawn. -/
def rndTake (s : State) : State := (s.rendererTakes s.digit).writeRndValid false

/-- The effect of `RND.POST` (R114): a new request; where the old one is offered and taken, a handshake of the old digit happens
at the same edge. -/
def rndPost (s : State) : State :=
  (if s.regs.rndValid && s.inputs.rndReady then s.rendererTakes s.digit else s).writeRndValid true

/-- `RND.IDLE` (R111) -/
def execRndIdle (s : State) : Host.Outcome State Fault Refusal := onBlock s rndIdle

/-- `RND.WAIT` (R112) -/
def execRndWait (s : State) : Host.Outcome State Fault Refusal := onBlock s rndWait

/-- `RND.TAKE` (R113) -/
def execRndTake (s : State) : Host.Outcome State Fault Refusal := onBlock s rndTake

/-- `RND.POST` (R114) -/
def execRndPost (s : State) : Host.Outcome State Fault Refusal := onBlock s rndPost

end Sys2Proof.Machine
end

