-- ==== Sys2Proof/Machine/Cycle.lean ====
section
/-! DEFINITION. The two operations of format RST, each a whole clock cycle: RESET (R140) and RUN (R56). -/

namespace Sys2Proof.Machine

open Sys2Proof

/-! ## RESET -/

/-- RESET on one channel (R140). -/
def resetChan (x : Channel) (s : State) : State :=
  (((s.writeSt x .idle).writeTmr x 0).writeSync x (List.replicate s.cfg.syncStages true)).writePrev x true

/-- The writes of RESET (R140). Every input but `rst` is ignored, and no handshake happens (R110). -/
def resetRows (s : State) : State :=
  ((resetChan .B (resetChan .A s.openCycle)).writeCtr initDigit).writeRndValid true

/-- `RESET` (R140): a cycle with `rst = 1`. -/
def execReset (s : State) : Host.Outcome State Fault Refusal := onBlock s fun s => (resetRows s).clockEdge

/-! ## RUN -/

/-- Perform an EDG row on channel `x`. -/
def performEdg (x : Channel) (r : EdgRow) (s : State) : State :=
  match r with
  | .fall => edgFall x s
  | .low => edgLow x s
  | .high => edgHigh x s

/-- Perform a BTN row on channel `x`. -/
def performBtn (x : Channel) (r : BtnRow) (s : State) : State :=
  match r with
  | .idle => btnIdle x s
  | .arm => btnArm x s
  | .wait => btnWait x s
  | .count => btnCount x s
  | .confirm => btnConfirm x s
  | .drop => btnDrop x s

/-- Perform a CTR row. -/
def performCtr (r : CtrRow) (s : State) : State :=
  match r with
  | .hold => ctrHold s
  | .inc => ctrInc s
  | .dec => ctrDec s
  | .both => ctrBoth s

/-- Perform an RND row. -/
def performRnd (r : RndRow) (s : State) : State :=
  match r with
  | .idle => rndIdle s
  | .wait => rndWait s
  | .take => rndTake s
  | .post => rndPost s

/-- The EDG row selected on channel `x`. -/
def edgPhase (x : Channel) (s : State) : State := performEdg x (decodeEdg (s.edgWord x)) s

/-- The BTN row selected on channel `x`. -/
def btnPhase (x : Channel) (s : State) : State := performBtn x (decodeBtn (s.btnWord x)) s

/-- One channel's part of a RUN cycle (R56): its EDG row, its BTN row, then `sync_X` and `prev_X` shift. -/
def channelPhase (x : Channel) (s : State) : State := prevLatch x (syncShift x (btnPhase x (edgPhase x s)))

/-- The CTR row selected by the two confirm signals. -/
def ctrPhase (s : State) : State := performCtr (decodeCtr s.ctrWord) s

/-- The RND row selected. -/
def rndPhase (s : State) : State := performRnd (decodeRnd s.rndWord) s

/-- The rows of a RUN cycle in the order of R56. Every row reads `S_t` and `I_t` only, so the order between the channels is of no
consequence (log entry 1). -/
def runRows (s : State) : State := rndPhase (ctrPhase (channelPhase .B (channelPhase .A s.openCycle)))

/-- `RUN` (R56): the normal cycle, `rst = 0`. -/
def execRun (s : State) : Host.Outcome State Fault Refusal := onBlock s fun s => (runRows s).clockEdge

/-- The rows a cycle performs: RESET alone, or RUN with the EDG and BTN rows of both channels, the CTR row and the RND row
(R56). -/
def rowsPerformed (s : State) : List Instr :=
  match decodeRst s.rstWord with
  | .reset => [.reset]
  | .run =>
    let edgA := edgPhase .A s.openCycle
    let chA := channelPhase .A s.openCycle
    let edgB := edgPhase .B chA
    let chB := channelPhase .B chA
    [.run,
      (decodeEdg (s.openCycle.edgWord .A)).instr .A, (decodeBtn (edgA.btnWord .A)).instr .A,
      (decodeEdg (chA.edgWord .B)).instr .B, (decodeBtn (edgB.btnWord .B)).instr .B,
      (decodeCtr chB.ctrWord).instr, (decodeRnd (ctrPhase chB).rndWord).instr]

end Sys2Proof.Machine
end

