-- ==== Sys2Proof/Machine/Arrange.lean ====
section
/-! DEFINITION. Arranging a cycle in which a given row is performed: what `State.withFetchWord` sets, since the block fetches
nothing (R31, R141) and selects its rows by its registers and inputs (R50). Log entry 10, DESIGN CHOICE. -/

namespace Sys2Proof.Machine

open Sys2Proof

/-- The inputs of a normal cycle in which nothing is pressed and no tick comes: stimulus word `0x07` (R61). -/
def quietInputs : Inputs := { rst := false, tick := false, btnAN := true, btnBN := true, rndReady := true }

/-- Prescribe this cycle's inputs by changing those already prescribed, or the quiet ones. -/
def State.prescribe (s : State) (f : Inputs → Inputs) : State :=
  match s.script with
  | [] => { s with script := [f quietInputs] }
  | i :: l => { s with script := f i :: l }

/-- Change the registers between two cycles. -/
def State.onRegs (s : State) (f : Regs → Regs) : State := { s with regs := f s.regs, work := Work.closed (f s.regs) }

/-- Change channel `x` between two cycles. -/
def State.onRegChan (s : State) (x : Channel) (f : Chan → Chan) : State :=
  s.onRegs fun r => r.setChan x (f (r.chan x))

/-- A synchroniser whose last stage holds `b`. -/
def withLevel (b : Bool) (sync : List Bool) : List Bool := sync.dropLast ++ [b]

/-- A RUN cycle, with or without a tick. -/
def State.runTick (s : State) (tick : Bool) : State := s.prescribe fun i => { i with rst := false, tick := tick }

/-- A RUN cycle. -/
def State.runCycle (s : State) : State := s.prescribe fun i => { i with rst := false }

/-- Channel `x` due to fire, at the given level. -/
def State.due (s : State) (x : Channel) (level : Bool) : State :=
  s.onRegChan x fun c => { c with st := .pending, tmr := 0, sync := withLevel level c.sync }

/-- Channel `x` Idle, so that it cannot fire. -/
def State.atRest (s : State) (x : Channel) : State := s.onRegChan x fun c => { c with st := .idle, tmr := 0 }

/-- The state in which the next cycle performs the row `i` (on its channel, for a per-channel row). -/
def State.arrange (s : State) (i : Instr) : State :=
  match i with
  | .reset => s.prescribe fun i => { i with rst := true }
  | .run => s.runCycle
  | .edgFall x => (s.onRegChan x fun c => { c with prev := true, sync := withLevel false c.sync }).runCycle
  | .edgLow x => (s.onRegChan x fun c => { c with prev := false, sync := withLevel false c.sync }).runCycle
  | .edgHigh x => (s.onRegChan x fun c => { c with sync := withLevel true c.sync }).runCycle
  | .btnIdle x => (s.onRegChan x fun c => { c with st := .idle, prev := c.prev && s.lvl x }).runCycle
  | .btnArm x =>
    (s.onRegChan x fun c => { c with st := .idle, prev := true, sync := withLevel false c.sync }).runCycle
  | .btnWait x => (s.onRegChan x fun c => { c with st := .pending }).runTick false
  | .btnCount x => (s.onRegChan x fun c => { c with st := .pending, tmr := max 1 c.tmr }).runTick true
  | .btnConfirm x => (s.due x false).runTick true
  | .btnDrop x => (s.due x true).runTick true
  | .ctrHold => s.runTick false
  | .ctrInc => ((s.due .A false).atRest .B).runTick true
  | .ctrDec => ((s.due .B false).atRest .A).runTick true
  | .ctrBoth => ((s.due .A false).due .B false).runTick true
  | .rndIdle => (s.onRegs fun r => { r with rndValid := false }).runTick false
  | .rndWait =>
    ((s.onRegs fun r => { r with rndValid := true }).runTick false).prescribe fun i => { i with rndReady := false }
  | .rndTake =>
    ((s.onRegs fun r => { r with rndValid := true }).runTick false).prescribe fun i => { i with rndReady := true }
  | .rndPost => (s.due .A false).runTick true

end Sys2Proof.Machine
end

