-- ==== Sys2Proof/Machine/Dispatch.lean ====
section
/-! DEFINITION. The dispatch: one arm per row of opcode_table.json. -/

namespace Sys2Proof.Machine

open Sys2Proof

def exec (i : Instr) (s : State) : Host.Outcome State Fault Refusal :=
  match i with
  | .reset => Sys2Proof.Machine.execReset s
  | .run => Sys2Proof.Machine.execRun s
  | .edgFall x => Sys2Proof.Machine.execEdgFall x s
  | .edgLow x => Sys2Proof.Machine.execEdgLow x s
  | .edgHigh x => Sys2Proof.Machine.execEdgHigh x s
  | .btnIdle x => Sys2Proof.Machine.execBtnIdle x s
  | .btnArm x => Sys2Proof.Machine.execBtnArm x s
  | .btnWait x => Sys2Proof.Machine.execBtnWait x s
  | .btnCount x => Sys2Proof.Machine.execBtnCount x s
  | .btnConfirm x => Sys2Proof.Machine.execBtnConfirm x s
  | .btnDrop x => Sys2Proof.Machine.execBtnDrop x s
  | .ctrHold => Sys2Proof.Machine.execCtrHold s
  | .ctrInc => Sys2Proof.Machine.execCtrInc s
  | .ctrDec => Sys2Proof.Machine.execCtrDec s
  | .ctrBoth => Sys2Proof.Machine.execCtrBoth s
  | .rndIdle => Sys2Proof.Machine.execRndIdle s
  | .rndWait => Sys2Proof.Machine.execRndWait s
  | .rndTake => Sys2Proof.Machine.execRndTake s
  | .rndPost => Sys2Proof.Machine.execRndPost s

end Sys2Proof.Machine
end

