-- ==== Sys2Proof/Machine/Step.lean ====
section
/-! DEFINITION. The step: one clock cycle (R131). The block fetches nothing (R31); what selects the operation of a cycle is the RST
word of its inputs (R50, R56). -/

namespace Sys2Proof.Machine

open Sys2Proof

/-- One step: the operation the RST word selects, RESET or RUN. Both end with the clock edge, which uses up the cycle's inputs,
so the step adds nothing around `exec`. -/
def step (s : State) : Host.Outcome State Fault Refusal := exec (decodeRst s.rstWord).instr s

/-- `s` arranged so that the next step performs the row a table word stands for (log entries 9 and 10); `s` itself where the
decoder refuses the word. -/
def State.withFetchWord (s : State) (nbits w : Nat) : State :=
  match decodeTableWord nbits w with
  | some i => s.arrange i
  | none => s

end Sys2Proof.Machine
end

