-- ==== Sys2Proof/Machine/Script.lean ====
section
/-! DEFINITION. Stimulus scripts (30_encoding.md section 6): reading a script text, expanding its pseudo-statements, and the inputs,
one per cycle, that it stands for. The block runs no program; a script is what stands in for one. -/

namespace Sys2Proof.Machine

open Sys2Proof

/-! ## Expansion (R63) and meaning (R62) -/

/-- The expansion of a script line into core statements (R63). -/
def expandLine : Line → List Stmt
  | .core st => [st]
  | .wait n => List.replicate n .cyc
  | .ticks n => List.replicate n .cycTick
  | .press .A => [.set (some false) none none]
  | .press .B => [.set none (some false) none]
  | .release .A => [.set (some true) none none]
  | .release .B => [.set none (some true) none]
  | .stall => [.set none none (some false)]
  | .unstall => [.set none none (some true)]

/-- The three sticky levels of a script (R62), held as inputs with `rst` and `tick` 0. "each 1 at the start of the script". -/
def stickyStart : Inputs := { rst := false, tick := false, btnAN := true, btnBN := true, rndReady := true }

/-- The inputs of the cycles a list of core statements stands for, given the sticky levels (R62): only `rst`, `cyc` and
`cyc tick` make a cycle. -/
def stimuli (sticky : Inputs) : List Stmt → List Inputs
  | [] => []
  | .set a b rdy :: l =>
    stimuli { sticky with btnAN := a.getD sticky.btnAN, btnBN := b.getD sticky.btnBN,
                          rndReady := rdy.getD sticky.rndReady } l
  | .rst :: l => { sticky with rst := true, tick := false } :: stimuli sticky l
  | .cyc :: l => { sticky with rst := false, tick := false } :: stimuli sticky l
  | .cycTick :: l => { sticky with rst := false, tick := true } :: stimuli sticky l

/-- The inputs of the cycles a script stands for (R61 to R63). -/
def assemble (ls : List Line) : List Inputs := stimuli stickyStart (ls.flatMap expandLine)

/-- A run of the list of inputs `l` starts from the state `s` (R61): they are prescribed for the coming cycles. -/
def State.withStimuli (s : State) (l : List Inputs) : State := { s with script := l }

/-! ## Script text (R62; lexical details: log entry 13, DESIGN CHOICE) -/

/-- The words of a line: runs of characters that are neither a blank nor a tab, up to a `;`, which starts a comment. -/
def wordsOf : List Char → List Char → List (List Char)
  | [], cur => if cur.isEmpty then [] else [cur.reverse]
  | ';' :: _, cur => if cur.isEmpty then [] else [cur.reverse]
  | c :: cs, cur =>
    if c = ' ' ∨ c = '\t' ∨ c = '\r' then (if cur.isEmpty then wordsOf cs [] else cur.reverse :: wordsOf cs [])
    else wordsOf cs (c :: cur)

/-- The lines of a text. -/
def linesOf : List Char → List Char → List (List Char)
  | [], cur => [cur.reverse]
  | c :: cs, cur => if c = '\n' then cur.reverse :: linesOf cs [] else linesOf cs (c :: cur)

/-- A level, `0` or `1`. -/
def levelOf : Char → Option Bool
  | '0' => some false
  | '1' => some true
  | _ => none

/-- The assignments of a `set` statement, in any order; a level named twice is refused. -/
def setOf (a b rdy : Option Bool) : List (List Char) → Option Stmt
  | [] => some (.set a b rdy)
  | ['a', '=', v] :: l =>
    match a, levelOf v with
    | none, some x => setOf (some x) b rdy l
    | _, _ => none
  | ['b', '=', v] :: l =>
    match b, levelOf v with
    | none, some x => setOf a (some x) rdy l
    | _, _ => none
  | ['r', 'd', 'y', '=', v] :: l =>
    match rdy, levelOf v with
    | none, some x => setOf a b (some x) l
    | _, _ => none
  | _ :: _ => none

/-- A decimal number. -/
def numberOf : List Char → Nat → Option Nat
  | [], acc => some acc
  | c :: cs, acc => if '0' ≤ c ∧ c ≤ '9' then numberOf cs (10 * acc + (c.toNat - '0'.toNat)) else none

/-- A decimal number of at least one digit. -/
def decimalOf : List Char → Option Nat
  | [] => none
  | c :: cs => numberOf (c :: cs) 0

/-- The statement of a line, from its words. -/
def statementOf : List (List Char) → Option Line
  | ['r', 's', 't'] :: [] => some (.core .rst)
  | ['c', 'y', 'c'] :: [] => some (.core .cyc)
  | ['c', 'y', 'c'] :: ['t', 'i', 'c', 'k'] :: [] => some (.core .cycTick)
  | ['s', 'e', 't'] :: l => (setOf none none none l).map .core
  | ['w', 'a', 'i', 't'] :: n :: [] => (decimalOf n).map .wait
  | ['t', 'i', 'c', 'k', 's'] :: n :: [] => (decimalOf n).map .ticks
  | ['p', 'r', 'e', 's', 's'] :: ['a'] :: [] => some (.press .A)
  | ['p', 'r', 'e', 's', 's'] :: ['b'] :: [] => some (.press .B)
  | ['r', 'e', 'l', 'e', 'a', 's', 'e'] :: ['a'] :: [] => some (.release .A)
  | ['r', 'e', 'l', 'e', 'a', 's', 'e'] :: ['b'] :: [] => some (.release .B)
  | ['s', 't', 'a', 'l', 'l'] :: [] => some .stall
  | ['u', 'n', 's', 't', 'a', 'l', 'l'] :: [] => some .unstall
  | _ => none

/-- The statements of the lines of a text, numbered from `n`; a line without words is skipped, a line that is no statement is
refused with its number. -/
def parseLines (n : Nat) : List (List Char) → Except ScriptError (List Line)
  | [] => .ok []
  | cs :: l =>
    match wordsOf cs [] with
    | [] => parseLines (n + 1) l
    | w :: ws =>
      match statementOf (w :: ws) with
      | none => .error (.badLine n)
      | some st =>
        match parseLines (n + 1) l with
        | .ok rest => .ok (st :: rest)
        | .error e => .error e

/-- The statements of a script text (R62). -/
def parseScript (text : List Char) : Except ScriptError (List Line) := parseLines 1 (linesOf text [])

end Sys2Proof.Machine
end

