-- ==== Sys2Proof/Safety.lean ====
section
/-! DEFINITION. What a safe run is, in the terms the claims use: runs, the states a run from reset reaches, the invariants of R38,
quiescence (R135), what a run does at the block's ports, and the frames of the rows. -/

namespace Sys2Proof.Machine

open Sys2Proof

/-! ## Runs -/

/-- `n` cycles from `s`. -/
def runCycles : Nat → State → Host.Outcome State Fault Refusal
  | 0, s => .next s
  | n + 1, s =>
    match step s with
    | .next t => runCycles n t
    | .fault r => .fault r
    | .refused r => .refused r

/-- Where a run starts: right after reset, in a given configuration, with any inputs to come (R39, R121 item 2). -/
def startState (c : Config) (l : List Inputs) : State := (State.resetWith c).withStimuli l

/-- The states of the runs the model admits: those reached from reset in a legal configuration (R39). -/
def Reachable (t : State) : Prop :=
  ∃ (c : Config) (l : List Inputs) (n : Nat), c.legal = true ∧ runCycles n (startState c l) = .next t

/-! ## Invariants (R38) -/

/-- The invariants of R38 for one channel: `st_X = 0` implies `tmr_X = 0`, and `tmr_X ≤ DEBOUNCE_TICKS`. -/
abbrev Chan.Inv (cfg : Config) (c : Chan) : Prop := (c.st = .idle → c.tmr = 0) ∧ c.tmr ≤ cfg.debounceTicks

/-- The three invariants of R38. -/
abbrev Regs.Inv (cfg : Config) (r : Regs) : Prop := r.ctr.toNat ≤ 9 ∧ r.chA.Inv cfg ∧ r.chB.Inv cfg

/-- A state of a legally configured block that keeps R38. -/
abbrev State.Inv (s : State) : Prop := s.wf = true ∧ s.regs.Inv s.cfg

/-- Between cycles nothing of the last cycle is left: no signal is driven, and the next-state image is the registers (R37: "no
latched edge, no queued request"; log entry 2). -/
abbrev State.Closed (s : State) : Prop := s.work = Work.closed s.regs

/-- When no request is outstanding, the renderer's last value is the Counter (R115). -/
abbrev State.RendererUpToDate (s : State) : Prop := s.regs.rndValid = false → s.lastTaken = some s.digit

/-! ## Quiescence (R135) -/

/-- "The state is quiescent when `st_A = st_B = 0` and `rnd_valid = 0`" (R135). -/
abbrev State.Quiescent (s : State) : Prop :=
  s.regs.chA.st = .idle ∧ s.regs.chB.st = .idle ∧ s.regs.rndValid = false

/-- No falling edge is still inside the channel's synchroniser: from the oldest level it holds (`prev_X`, then the last stage) to
the newest (stage 0), no high level is followed by a low one (log entry 15). -/
abbrev Chan.NoPulse (c : Chan) : Prop :=
  (c.prev :: c.sync.reverse).Pairwise fun older newer => older = true → newer = true

/-! ## What a run does at the ports -/

/-- No reset in the next `n` cycles. -/
abbrev noReset (s : State) (n : Nat) : Prop := ∀ k, k < n → (s.inputsAt k).rst = false

/-- The pin of channel `x` is high in the next `n` cycles. -/
abbrev releasedFor (s : State) (x : Channel) (n : Nat) : Prop := ∀ k, k < n → (s.inputsAt k).btn x = true

/-- The number of ticks in the next `n` cycles (R24: each cycle in which `tick = 1` counts as exactly one tick). -/
def tickCount (s : State) : Nat → Nat
  | 0 => 0
  | n + 1 => tickCount s n + (if (s.inputsAt n).tick then 1 else 0)

/-- What the renderer takes in this cycle (R110). -/
def State.takes (s : State) : Option Digit := if s.handshake then some s.digit else none

/-- Channel `x` confirms in this cycle: a RUN cycle, PendingDebounce, a tick, the timer run out, and the level low (R85). -/
def State.confirms (s : State) (x : Channel) : Bool :=
  !s.inputs.rst && (s.regs.chan x).st.bit && s.inputs.tick && s.tz x && !s.lvl x

/-- The values the renderer takes in `n` cycles from `s`, in order. -/
def takenIn : Nat → State → List Digit
  | 0, _ => []
  | n + 1, s =>
    s.takes.toList ++
      match step s with
      | .next t => takenIn n t
      | .fault _ => []
      | .refused _ => []

/-- The values the CTR rows write for a confirm in `n` cycles from `s`, in order: one for each cycle with an update (R115). -/
def writtenIn : Nat → State → List Digit
  | 0, _ => []
  | n + 1, s =>
    match step s with
    | .next t => (if s.confirms .A || s.confirms .B then [t.digit] else []) ++ writtenIn n t
    | .fault _ => []
    | .refused _ => []

/-! ## The environment and its duties (R133) -/

/-- The inputs of every cycle of an infinite run (R135), chosen by the environment. It is an argument of a claim and no part of
State; the environment may choose any (R26, R133). -/
abbrev InputStream := Nat → Inputs

/-- The tick source's duty: `tick = 1` in infinitely many cycles. "A model states it as a fairness assumption on the tick draws, not
as a rule of the step" (R133; log entry 14). -/
abbrev TickDuty (e : InputStream) : Prop := ∀ n, ∃ k, n ≤ k ∧ (e k).tick = true

/-- The renderer's duty: it asserts `rnd_ready` again in some later cycle, whatever cycle it is (R117, R133). -/
abbrev ReadyDuty (e : InputStream) : Prop := ∀ n, ∃ k, n ≤ k ∧ (e k).rndReady = true

/-- The reset source's duty: `rst = 1` in at least one cycle before the first RUN cycle (R133, R142). -/
abbrev ResetDuty (e : InputStream) : Prop := (e 0).rst = true

/-- No reset in any cycle. -/
abbrev NeverReset (e : InputStream) : Prop := ∀ k, (e k).rst = false

/-- Cycle `n` of the infinite run from `s` whose inputs are `e`: the state in that cycle, with the inputs `e n` in front of it. Cycle 0
is the one `s` is in. -/
def cycleOn (e : InputStream) (s : State) : Nat → Host.Outcome State Fault Refusal
  | 0 => .next (s.withStimuli [e 0])
  | n + 1 =>
    match cycleOn e s n with
    | .next t =>
      match step t with
      | .next u => .next (u.withStimuli [e (n + 1)])
      | .fault r => .fault r
      | .refused r => .refused r
    | .fault r => .fault r
    | .refused r => .refused r

/-! ## Frames: what the rows of each format leave unchanged in the cycle in progress -/

/-- What no row inside a cycle changes: the configuration, the registers `S_t` themselves (a `<-` writes `S_(t+1)`, R16), the
inputs to come, and the count of cycles. -/
abbrev RowFrame (s t : State) : Prop :=
  t.cfg = s.cfg ∧ t.regs = s.regs ∧ t.script = s.script ∧ t.cycle = s.cycle

/-- An EDG row on channel `x` drives `fall_X` and nothing else. -/
abbrev EdgFrame (x : Channel) (s t : State) : Prop :=
  RowFrame s t ∧ t.lastTaken = s.lastTaken ∧ t.work.nxt = s.work.nxt ∧ t.work.fall x.other = s.work.fall x.other ∧
    t.work.confA = s.work.confA ∧ t.work.confB = s.work.confB

/-- A BTN row on channel `x` writes `st_X` and `tmr_X`, drives `conf_X`, and nothing else. -/
abbrev BtnFrame (x : Channel) (s t : State) : Prop :=
  RowFrame s t ∧ t.lastTaken = s.lastTaken ∧ t.work.fallA = s.work.fallA ∧ t.work.fallB = s.work.fallB ∧
    t.work.conf x.other = s.work.conf x.other ∧ t.work.nxt.chan x.other = s.work.nxt.chan x.other ∧
    (t.work.nxt.chan x).sync = (s.work.nxt.chan x).sync ∧ (t.work.nxt.chan x).prev = (s.work.nxt.chan x).prev ∧
    t.work.nxt.ctr = s.work.nxt.ctr ∧ t.work.nxt.rndValid = s.work.nxt.rndValid

/-- A CTR row writes `ctr` and nothing else. -/
abbrev CtrFrame (s t : State) : Prop :=
  RowFrame s t ∧ t.lastTaken = s.lastTaken ∧ t.work.fallA = s.work.fallA ∧ t.work.fallB = s.work.fallB ∧
    t.work.confA = s.work.confA ∧ t.work.confB = s.work.confB ∧ t.work.nxt.chA = s.work.nxt.chA ∧
    t.work.nxt.chB = s.work.nxt.chB ∧ t.work.nxt.rndValid = s.work.nxt.rndValid

/-- An RND row writes `rnd_valid`, may hand the renderer a value, and nothing else. -/
abbrev RndFrame (s t : State) : Prop :=
  RowFrame s t ∧ t.work.fallA = s.work.fallA ∧ t.work.fallB = s.work.fallB ∧ t.work.confA = s.work.confA ∧
    t.work.confB = s.work.confB ∧ t.work.nxt.chA = s.work.nxt.chA ∧ t.work.nxt.chB = s.work.nxt.chB ∧
    t.work.nxt.ctr = s.work.nxt.ctr

/-! ## Times (R88, R150) -/

/-- The delay from ARM to fire is more than this many microseconds, with one-cycle ticks every `TICK_PERIOD` (R88). -/
def delayAboveMicros (c : Config) : Nat := c.debounceTicks * c.tickPeriodMicros

/-- The delay from ARM to fire is at most this many microseconds (R88). -/
def delayAtMostMicros (c : Config) : Nat := (c.debounceTicks + 1) * c.tickPeriodMicros

end Sys2Proof.Machine
end

