-- ==== Sys2Proof/Certificates/Slice0/Obligations.lean ====
section
/-! DEFINITION. The statements for the provers. They come from the numbered rules of spec/, family by family; a statement that
rests on a choice of the model's own says so. `s.wf` (a legally configured block whose registers have their widths) is the one
hypothesis of the completion statements: R14 and R121 give no step to anything else. -/

section

open Sys2Proof Sys2Proof.Machine

/-! ## Encoding (30_encoding.md) -/

/-- R58: in every format, every word selects exactly one row of the opcode map, the row the decoder gives, and no word traps: that
row completes in every state; with the counts of words and rows of R58. -/
def Obligations.EveryWordSelectsExactlyOneRow : Prop :=
  (∀ (f : Format) (x : Channel) (w : Word), f.wellFormed w = true →
    ∃ i, decode f x w = .ok i ∧ i ∈ f.rows x ∧
      (∀ j ∈ f.rows x, (rowMatches w j.matchBits j.maskBits = true ↔ j = i)) ∧
      ∀ s : State, s.wf = true → ∃ t, exec i s = .next t) ∧
  (∀ x : Channel,
    2 ^ Format.rst.bits = 2 ∧ (Format.rst.rows x).length = 2 ∧ 2 ^ Format.edg.bits = 4 ∧ (Format.edg.rows x).length = 3 ∧
    2 ^ Format.btn.bits = 32 ∧ (Format.btn.rows x).length = 6 ∧ 2 ^ Format.ctr.bits = 4 ∧ (Format.ctr.rows x).length = 4 ∧
    2 ^ Format.rnd.bits = 8 ∧ (Format.rnd.rows x).length = 4)

/-- Decode and encode agree (30_encoding.md section 4): every word of every operation, with any values in the bits its mask
leaves out, decodes to that operation on its channel, and a word that decodes to an operation is one of its words. -/
def Obligations.DecodeInvertsEncode : Prop :=
  (∀ (i : Instr) (x : Channel) (free : Word), (i.channel = none ∨ i.channel = some x) →
    i.format.wellFormed (encodeWith free i) = true ∧ decode i.format x (encodeWith free i) = .ok i) ∧
  (∀ (f : Format) (x : Channel) (w : Word) (i : Instr), decode f x w = .ok i →
    i.format = f ∧ (i.channel = none ∨ i.channel = some x) ∧ encodeWith w i = w) ∧
  (∀ (f : Format) (x : Channel) (w : Word), f.wellFormed w = false → decode f x w = .error (.tooWide f))

/-- One word per row of the opcode map (30_encoding.md section 4, 95_test_vectors.md section 2), written out, with the
operation it stands for. -/
def Obligations.WordsOfTheOpcodeMapDecode : Prop :=
  decode .rst .A 0b1 = .ok .reset ∧ decode .rst .A 0b0 = .ok .run ∧
  decode .edg .A 0b10 = .ok (.edgFall .A) ∧ decode .edg .B 0b00 = .ok (.edgLow .B) ∧
  decode .edg .A 0b11 = .ok (.edgHigh .A) ∧ decode .btn .A 0b00110 = .ok (.btnIdle .A) ∧
  decode .btn .B 0b01010 = .ok (.btnArm .B) ∧ decode .btn .A 0b11000 = .ok (.btnWait .A) ∧
  decode .btn .A 0b10101 = .ok (.btnCount .A) ∧ decode .btn .A 0b11110 = .ok (.btnConfirm .A) ∧
  decode .btn .B 0b10111 = .ok (.btnDrop .B) ∧ decode .ctr .A 0b00 = .ok .ctrHold ∧
  decode .ctr .A 0b10 = .ok .ctrInc ∧ decode .ctr .A 0b01 = .ok .ctrDec ∧ decode .ctr .A 0b11 = .ok .ctrBoth ∧
  decode .rnd .A 0b001 = .ok .rndIdle ∧ decode .rnd .A 0b010 = .ok .rndWait ∧ decode .rnd .A 0b011 = .ok .rndTake ∧
  decode .rnd .A 0b110 = .ok .rndPost

/-- The bits of the decode words of a cycle (R51 to R55). -/
def Obligations.DecodeWordsHoldTheirFields : Prop :=
  ∀ (s : State) (x : Channel),
    s.rstWord.getLsbD 0 = s.inputs.rst ∧
    (s.edgWord x).getLsbD 1 = (s.regs.chan x).prev ∧ (s.edgWord x).getLsbD 0 = s.lvl x ∧
    ((s.btnWord x).getLsbD 4 = true ↔ (s.regs.chan x).st = .pending) ∧
    (s.btnWord x).getLsbD 3 = s.work.fall x ∧ (s.btnWord x).getLsbD 2 = s.inputs.tick ∧
    ((s.btnWord x).getLsbD 1 = true ↔ (s.regs.chan x).tmr = 0) ∧ (s.btnWord x).getLsbD 0 = s.lvl x ∧
    s.ctrWord.getLsbD 1 = s.work.confA ∧ s.ctrWord.getLsbD 0 = s.work.confB ∧
    s.rndWord.getLsbD 2 = (s.work.confA || s.work.confB) ∧ s.rndWord.getLsbD 1 = s.regs.rndValid ∧
    s.rndWord.getLsbD 0 = s.inputs.rndReady

/-- R61: the bits of a stimulus word, its two hexadecimal digits, the two examples of the rule, and a run as the
list of the words of its cycles, starting with the cycle after the state is given. -/
def Obligations.StimulusWordIsTheInputsOfOneCycle : Prop :=
  (∀ w : StimWord, (decodeStim w).rst = w.getLsbD 4 ∧ (decodeStim w).tick = w.getLsbD 3 ∧
    (decodeStim w).btnAN = w.getLsbD 2 ∧ (decodeStim w).btnBN = w.getLsbD 1 ∧
    (decodeStim w).rndReady = w.getLsbD 0 ∧ encodeStim (decodeStim w) = w) ∧
  (∀ i : Inputs, decodeStim (encodeStim i) = i) ∧
  (∀ (w : StimWord) (hi lo : Char),
    ['0', '1'][w.toNat / 16]? = some hi →
    ['0', '1', '2', '3', '4', '5', '6', '7', '8', '9', 'A', 'B', 'C', 'D', 'E', 'F'][w.toNat % 16]? = some lo →
    decodeStimHex hi lo = .ok (decodeStim w)) ∧
  decodeStimHex '0' '7' = .ok ⟨false, false, true, true, true⟩ ∧
  decodeStimHex '0' 'B' = .ok ⟨false, true, false, true, true⟩ ∧
  (∀ (s : State) (l : List Inputs) (k : Nat) (i : Inputs), l[k]? = some i → (s.withStimuli l).inputsAt k = i)

/-- R62: only `rst`, `cyc` and `cyc tick` make a cycle, with the sticky levels, which start at 1 and which `set` changes. -/
def Obligations.ScriptStatementsMakeStimuli : Prop :=
  (∀ (k : Inputs) (l : List Stmt) (a b rdy : Option Bool),
    stimuli k (.rst :: l) = ⟨true, false, k.btnAN, k.btnBN, k.rndReady⟩ :: stimuli k l ∧
    stimuli k (.cyc :: l) = ⟨false, false, k.btnAN, k.btnBN, k.rndReady⟩ :: stimuli k l ∧
    stimuli k (.cycTick :: l) = ⟨false, true, k.btnAN, k.btnBN, k.rndReady⟩ :: stimuli k l ∧
    stimuli k (.set a b rdy :: l) =
      stimuli ⟨k.rst, k.tick, a.getD k.btnAN, b.getD k.btnBN, rdy.getD k.rndReady⟩ l) ∧
  assemble [.core .cyc] = [⟨false, false, true, true, true⟩]

/-- R63: the expansions of the pseudo-statements. -/
def Obligations.PseudoStatementsExpand : Prop :=
  ∀ n : Nat,
    expandLine (.wait n) = List.replicate n .cyc ∧ expandLine (.ticks n) = List.replicate n .cycTick ∧
    expandLine (.press .A) = [.set (some false) none none] ∧ expandLine (.press .B) = [.set none (some false) none] ∧
    expandLine (.release .A) = [.set (some true) none none] ∧ expandLine (.release .B) = [.set none (some true) none] ∧
    expandLine .stall = [.set none none (some false)] ∧ expandLine .unstall = [.set none none (some true)]

/-- R59 item 1: no cycle forms a BTN word with `fall_X` and `lvl_X` both set, since the EDG row of the channel comes first. -/
def Obligations.FallAndHighLevelNeverMeet : Prop :=
  ∀ (s : State) (x : Channel),
    ¬ (((edgPhase x s).btnWord x).getLsbD 3 = true ∧ ((edgPhase x s).btnWord x).getLsbD 0 = true)

/-! ## Configuration, refusals, reset -/

/-- R14: the legal configurations, and no step at all on any other. -/
def Obligations.IllegalConfigurationHasNoStep : Prop :=
  (∀ c : Config, c.legal = true ↔
    1 ≤ c.debounceTicks ∧ c.debounceTicks ≤ 2 ^ c.tmrW - 1 ∧ 1 ≤ c.tmrW ∧ 1 ≤ c.syncStages) ∧
  (∀ s : State, s.cfg.legal = false →
    step s = .refused .illegalConfig ∧ ∀ i : Instr, exec i s = .refused .illegalConfig)

/-- R120: every operation completes, on every state of a legally configured block; so does every step. The refusals are those
of R121: an illegal configuration, and a record that is no state of the block (the second is the model's, log entry 6). -/
def Obligations.EveryRowCompletesAndNothingElseIsRefused : Prop :=
  (∀ (i : Instr) (s : State), s.wf = true → ∃ t, exec i s = .next t) ∧
  (∀ s : State, s.wf = true → ∃ t, step s = .next t) ∧
  (∀ (s : State) (r : Refusal), step s = .refused r →
    (r = .illegalConfig ∧ s.cfg.legal = false) ∨ (r = .misfit ∧ s.cfg.legal = true ∧ s.fits = false))

/-- The reset values of 10_state.md section 2 in the state after reset, in every configuration; with the model's own fields as
log entries 2, 3 and 4 choose them. -/
def Obligations.ResetStateHoldsTheResetValues : Prop :=
  State.reset = State.resetWith Config.default ∧
  ∀ c : Config,
    (State.resetWith c).cfg = c ∧
    (∀ x : Channel, ((State.resetWith c).regs.chan x).st = .idle ∧ ((State.resetWith c).regs.chan x).tmr = 0 ∧
      ((State.resetWith c).regs.chan x).sync = List.replicate c.syncStages true ∧
      ((State.resetWith c).regs.chan x).prev = true) ∧
    (State.resetWith c).regs.ctr = 0 ∧ (State.resetWith c).regs.rndValid = true ∧
    (State.resetWith c).Closed ∧ (State.resetWith c).lastTaken = none

/-- R140: `RESET`. A cycle with `rst = 1` performs it, whatever the other inputs and the registers are; every register takes its
reset value (a fire that is due is cancelled with the rest), and the cycle is never a handshake: the renderer takes nothing. A
second reset gives the same registers. A button held through the reset and after it is seen as one press. That the renderer takes
nothing is said through `lastTaken`, the model's observation (log entry 4). -/
def Obligations.ResetCycleLoadsEveryRegister : Prop :=
  ∀ s : State, s.wf = true →
    ∃ t, exec .reset s = .next t ∧
      (s.inputs.rst = true → s.handshake = false ∧ step s = .next t) ∧
      (∀ x : Channel, t.regs.chan x =
        { st := .idle, tmr := 0, sync := List.replicate s.cfg.syncStages true, prev := true }) ∧
      t.regs.ctr = 0 ∧ t.regs.rndValid = true ∧
      t.lastTaken = s.lastTaken ∧ t.cfg = s.cfg ∧
      (∃ u, exec .reset t = .next u ∧ u.regs = t.regs) ∧
      ∀ x : Channel, s.inputs.rst = true →
        (∀ k, 1 ≤ k → k ≤ s.cfg.syncStages + 1 → (s.inputsAt k).rst = false ∧ (s.inputsAt k).btn x = false) →
        ∃ v, runCycles (s.cfg.syncStages + 2) s = .next v ∧ v.pend x = true

/-! ## The rows of EDG -/

/-- R73: `EDG.FALL` is selected by a high level that is now low, yields `fall_X = 1`, changes nothing else; it implies `lvl_X = 0`
in the same cycle, and no falling edge follows it in the next RUN cycle. -/
def Obligations.EdgFallYieldsOneCycleOfFall : Prop :=
  ∀ (s : State) (x : Channel), s.wf = true →
    (decodeEdg (s.edgWord x) = .fall ↔ (s.regs.chan x).prev = true ∧ s.lvl x = false) ∧
    (∃ t, exec (.edgFall x) s = .next t ∧ t.work.fall x = true ∧ EdgFrame x s t) ∧
    (decodeEdg (s.edgWord x) = .fall → s.inputs.rst = false →
      ∃ u, step s = .next u ∧ decodeEdg (u.edgWord x) ≠ .fall)

/-- R74 and R75: `EDG.LOW` and `EDG.HIGH`, selected by a level that was and is low and by a high level (steady or just risen),
yield `fall_X = 0` and change nothing else. -/
def Obligations.EdgLowAndHighYieldNoFall : Prop :=
  ∀ (s : State) (x : Channel), s.wf = true →
    (decodeEdg (s.edgWord x) = .low ↔ (s.regs.chan x).prev = false ∧ s.lvl x = false) ∧
    (∃ t, exec (.edgLow x) s = .next t ∧ t.work.fall x = false ∧ EdgFrame x s t) ∧
    (decodeEdg (s.edgWord x) = .high ↔ s.lvl x = true) ∧
    (∃ t, exec (.edgHigh x) s = .next t ∧ t.work.fall x = false ∧ EdgFrame x s t)

/-! ## The rows of BTN -/

/-- R81: `BTN.IDLE`. -/
def Obligations.BtnIdleClearsTheTimer : Prop :=
  ∀ (s : State) (x : Channel), s.wf = true →
    (decodeBtn (s.btnWord x) = .idle ↔ (s.regs.chan x).st = .idle ∧ s.work.fall x = false) ∧
    ∃ t, exec (.btnIdle x) s = .next t ∧ (t.work.nxt.chan x).st = .idle ∧ (t.work.nxt.chan x).tmr = 0 ∧
      t.work.conf x = false ∧ BtnFrame x s t

/-- R82: `BTN.ARM`, selected in Idle by a falling edge, loads the whole delay, whether or not there is a tick; the edge is
consumed: in the RUN cycle that arms, `prev_X` becomes 0 at the same edge. -/
def Obligations.BtnArmSchedulesTheDelay : Prop :=
  ∀ (s : State) (x : Channel), s.wf = true →
    (decodeBtn (s.btnWord x) = .arm ↔ (s.regs.chan x).st = .idle ∧ s.work.fall x = true) ∧
    (∃ t, exec (.btnArm x) s = .next t ∧ (t.work.nxt.chan x).st = .pending ∧
      (t.work.nxt.chan x).tmr = s.cfg.debounceTicks ∧ t.work.conf x = false ∧ BtnFrame x s t) ∧
    (s.inputs.rst = false → (s.regs.chan x).st = .idle → (s.regs.chan x).prev = true → s.lvl x = false →
      ∃ u, step s = .next u ∧ (u.regs.chan x).st = .pending ∧ (u.regs.chan x).tmr = s.cfg.debounceTicks ∧
        (u.regs.chan x).prev = false ∧ u.pend x = true)

/-- R83: `BTN.WAIT`, selected in PendingDebounce without a tick, whatever the edge, the timer and the level are. -/
def Obligations.BtnWaitHoldsTheTimer : Prop :=
  ∀ (s : State) (x : Channel), s.wf = true →
    (decodeBtn (s.btnWord x) = .wait ↔ (s.regs.chan x).st = .pending ∧ s.inputs.tick = false) ∧
    ∃ t, exec (.btnWait x) s = .next t ∧ (t.work.nxt.chan x).st = .pending ∧
      (t.work.nxt.chan x).tmr = (s.regs.chan x).tmr ∧ t.work.conf x = false ∧ BtnFrame x s t

/-- R84: `BTN.COUNT`, selected in PendingDebounce by a tick while the timer has not run out, whatever the edge and the level
are; the timer goes down by one without a wrap. On a timer at 0, where no cycle selects the row, it still completes. -/
def Obligations.BtnCountTakesOneTick : Prop :=
  ∀ (s : State) (x : Channel), s.wf = true →
    (decodeBtn (s.btnWord x) = .count ↔
      (s.regs.chan x).st = .pending ∧ s.inputs.tick = true ∧ 1 ≤ (s.regs.chan x).tmr) ∧
    ∃ t, exec (.btnCount x) s = .next t ∧ (t.work.nxt.chan x).st = .pending ∧
      (1 ≤ (s.regs.chan x).tmr → (t.work.nxt.chan x).tmr = (s.regs.chan x).tmr - 1) ∧
      t.work.conf x = false ∧ BtnFrame x s t

/-- R85: `BTN.CONFIRM`, selected at the fire when the re-sampled level is low, whatever the edge is, re-arms the channel and
yields `conf_X = 1`, which selects an update of the Counter (up for A, down for B, both where both confirm) and a request; the
row itself does not write the Counter (`BtnFrame`). -/
def Obligations.BtnConfirmYieldsConf : Prop :=
  ∀ (s : State) (x : Channel), s.wf = true →
    (decodeBtn (s.btnWord x) = .confirm ↔
      (s.regs.chan x).st = .pending ∧ s.inputs.tick = true ∧ (s.regs.chan x).tmr = 0 ∧ s.lvl x = false) ∧
    ∃ t, exec (.btnConfirm x) s = .next t ∧ (t.work.nxt.chan x).st = .idle ∧ (t.work.nxt.chan x).tmr = 0 ∧
      t.work.conf x = true ∧ BtnFrame x s t ∧ t.upd = true ∧
      decodeCtr t.ctrWord =
        (match x, s.work.conf x.other with
         | .A, false => .inc
         | .B, false => .dec
         | _, true => .both)

/-- R86: `BTN.DROP`, selected at the fire when the re-sampled level is high, re-arms the channel; no confirm, so no counter
change and no render request. -/
def Obligations.BtnDropIsSilent : Prop :=
  ∀ (s : State) (x : Channel), s.wf = true →
    (decodeBtn (s.btnWord x) = .drop ↔
      (s.regs.chan x).st = .pending ∧ s.inputs.tick = true ∧ (s.regs.chan x).tmr = 0 ∧ s.lvl x = true) ∧
    ∃ t, exec (.btnDrop x) s = .next t ∧ (t.work.nxt.chan x).st = .idle ∧ (t.work.nxt.chan x).tmr = 0 ∧
      t.work.conf x = false ∧ BtnFrame x s t ∧
      (s.work.conf x.other = false → decodeCtr t.ctrWord = .hold ∧ t.upd = false)

/-! ## The rows of CTR -/

/-- R100 and R101: `inc10` and `dec10` on every 4-bit value. -/
def Obligations.CounterFunctionsWrap : Prop :=
  ∀ x : Digit,
    (x.toNat ≤ 8 → (inc10 x).toNat = x.toNat + 1) ∧ (9 ≤ x.toNat → inc10 x = 0) ∧
    (1 ≤ x.toNat ∧ x.toNat ≤ 9 → (dec10 x).toNat = x.toNat - 1) ∧ (x.toNat = 0 ∨ 10 ≤ x.toNat → dec10 x = 9)

/-- R107: the arithmetic laws of the counter functions, and that any 4-bit value yields a digit. -/
def Obligations.CounterFunctionLaws : Prop :=
  (∀ x : Digit, x.toNat ≤ 9 →
    (inc10 x).toNat = (x.toNat + 1) % 10 ∧ (dec10 x).toNat = (x.toNat + 9) % 10 ∧
    inc10 (dec10 x) = x ∧ dec10 (inc10 x) = x ∧ inc10^[10] x = x ∧ dec10^[10] x = x) ∧
  (dec10^[9] 0 = 1 ∧ dec10^[10] 0 = 0 ∧ inc10 9 = 0) ∧
  (∀ x : Digit, (inc10 x).toNat ≤ 9 ∧ (dec10 x).toNat ≤ 9) ∧
  (∀ (l : List Inputs) (c : Config) (n : Nat) (t : State), runCycles n (startState c l) = .next t → t.digit.toNat ≤ 9)

/-- R102, R103 and R104: the CTR rows of at most one confirm. -/
def Obligations.CtrRowsOfOneConfirm : Prop :=
  ∀ s : State, s.wf = true →
    (decodeCtr s.ctrWord = .hold ↔ s.work.confA = false ∧ s.work.confB = false) ∧
    (∃ t, exec .ctrHold s = .next t ∧ t.work.nxt.ctr = s.regs.ctr ∧ CtrFrame s t) ∧
    (decodeCtr s.ctrWord = .inc ↔ s.work.confA = true ∧ s.work.confB = false) ∧
    (∃ t, exec .ctrInc s = .next t ∧ CtrFrame s t ∧
      t.work.nxt.ctr = if 9 ≤ s.regs.ctr.toNat then 0 else s.regs.ctr + 1) ∧
    (decodeCtr s.ctrWord = .dec ↔ s.work.confA = false ∧ s.work.confB = true) ∧
    (∃ t, exec .ctrDec s = .next t ∧ CtrFrame s t ∧
      t.work.nxt.ctr = if s.regs.ctr.toNat = 0 ∨ 10 ≤ s.regs.ctr.toNat then 9 else s.regs.ctr - 1)

/-- R105: `CTR.BOTH` applies A's update and then B's; for every digit the result is the Counter itself, whichever comes first,
and 9 for the unreachable values; in a RUN cycle in which both channels confirm, one request is posted for that value. -/
def Obligations.BothConfirmsCancel : Prop :=
  ∀ s : State, s.wf = true →
    (decodeCtr s.ctrWord = .both ↔ s.work.confA = true ∧ s.work.confB = true) ∧
    (∃ t, exec .ctrBoth s = .next t ∧ CtrFrame s t ∧ t.work.nxt.ctr = dec10 (inc10 s.regs.ctr) ∧
      (s.regs.ctr.toNat ≤ 9 → t.work.nxt.ctr = s.regs.ctr ∧ inc10 (dec10 s.regs.ctr) = s.regs.ctr) ∧
      (10 ≤ s.regs.ctr.toNat → t.work.nxt.ctr = 9)) ∧
    (s.confirms .A = true → s.confirms .B = true →
      ∃ u, step s = .next u ∧ u.regs.rndValid = true ∧ (s.regs.ctr.toNat ≤ 9 → u.regs.ctr = s.regs.ctr))

/-- R106: only the CTR rows write `ctr`, and in each step the new value is the one its confirms select, or the reset value. -/
def Obligations.CounterHasOneWriter : Prop :=
  (∀ (i : Instr) (s t : State), exec i s = .next t → i.format ≠ .ctr → i.format ≠ .rst →
    t.regs.ctr = s.regs.ctr ∧ t.work.nxt.ctr = s.work.nxt.ctr) ∧
  (∀ s : State, s.wf = true →
    ∃ t, step s = .next t ∧
      t.regs.ctr =
        (if s.inputs.rst then 0
         else
          match s.confirms .A, s.confirms .B with
          | false, false => s.regs.ctr
          | true, false => inc10 s.regs.ctr
          | false, true => dec10 s.regs.ctr
          | true, true => dec10 (inc10 s.regs.ctr)))

/-! ## The rows of RND -/

/-- R111 and R112: `RND.IDLE` and `RND.WAIT`; the renderer takes nothing. -/
def Obligations.RndIdleAndWaitTakeNothing : Prop :=
  ∀ s : State, s.wf = true →
    (decodeRnd s.rndWord = .idle ↔ s.upd = false ∧ s.regs.rndValid = false) ∧
    (∃ t, exec .rndIdle s = .next t ∧ t.work.nxt.rndValid = false ∧ t.lastTaken = s.lastTaken ∧ RndFrame s t) ∧
    (decodeRnd s.rndWord = .wait ↔ s.upd = false ∧ s.regs.rndValid = true ∧ s.inputs.rndReady = false) ∧
    (∃ t, exec .rndWait s = .next t ∧ t.work.nxt.rndValid = true ∧ t.lastTaken = s.lastTaken ∧ RndFrame s t)

/-- R113 and R114: `RND.TAKE`, where the renderer takes `digit`, and `RND.POST`, where it takes the old digit if the request for
it is outstanding and it is ready, and a new request is posted in any case. -/
def Obligations.RndTakeAndPostHandOver : Prop :=
  ∀ s : State, s.wf = true →
    (decodeRnd s.rndWord = .take ↔ s.upd = false ∧ s.regs.rndValid = true ∧ s.inputs.rndReady = true) ∧
    (∃ t, exec .rndTake s = .next t ∧ t.work.nxt.rndValid = false ∧ t.lastTaken = some s.regs.ctr ∧ RndFrame s t) ∧
    (decodeRnd s.rndWord = .post ↔ s.upd = true) ∧
    (∃ t, exec .rndPost s = .next t ∧ t.work.nxt.rndValid = true ∧ RndFrame s t ∧
      t.lastTaken = if s.regs.rndValid = true ∧ s.inputs.rndReady = true then some s.regs.ctr else s.lastTaken)

/-- R110: `upd` and `handshake`, and what the renderer takes in a cycle: at a handshake the Counter of that cycle, before any
update made at the same edge; nothing otherwise, and nothing while `rst = 1`. -/
def Obligations.HandshakeTakesTheDigitOfTheCycle : Prop :=
  ∀ s : State, s.wf = true →
    s.upd = (s.work.confA || s.work.confB) ∧ s.rndWord.getLsbD 2 = s.upd ∧
    (s.handshake = true ↔ s.regs.rndValid = true ∧ s.inputs.rndReady = true ∧ s.inputs.rst = false) ∧
    ∃ t, step s = .next t ∧ t.lastTaken = if s.handshake then some s.regs.ctr else s.lastTaken

/-! ## The cycle -/

/-- The step runs the operation its RST word decodes to, and adds nothing around it: the clock edge that ends RESET and RUN also
uses up the inputs of the cycle (log entry 1). -/
def Obligations.StepRunsTheDecodedOperation : Prop :=
  (∀ (s : State) (x : Channel) (i : Instr), decode .rst x (s.rstWord.setWidth 8) = .ok i → step s = exec i s) ∧
  (∀ s t : State, step s = .next t → t.script = s.script.tail ∧ t.cycle = s.cycle + 1)

/-- R56: in a cycle with `rst = 0` the block performs exactly one EDG row and one BTN row for each channel, one CTR row and one
RND row, each selected by its word in that cycle, and the synchronisers and `prev` shift; all the writes take effect together at
the edge. In a cycle with `rst = 1` none of them is performed, and RESET is. -/
def Obligations.RunPerformsTheSelectedRows : Prop :=
  ∀ s : State, s.wf = true →
    (s.inputs.rst = false → step s = exec .run s) ∧ (s.inputs.rst = true → step s = exec .reset s) ∧
    ∃ a1 a2 b1 b2 c r : State,
      exec ((decodeEdg (s.openCycle.edgWord .A)).instr .A) s.openCycle = .next a1 ∧
      exec ((decodeBtn (a1.btnWord .A)).instr .A) a1 = .next a2 ∧
      exec ((decodeEdg ((prevLatch .A (syncShift .A a2)).edgWord .B)).instr .B) (prevLatch .A (syncShift .A a2)) =
        .next b1 ∧
      exec ((decodeBtn (b1.btnWord .B)).instr .B) b1 = .next b2 ∧
      exec (decodeCtr (prevLatch .B (syncShift .B b2)).ctrWord).instr (prevLatch .B (syncShift .B b2)) = .next c ∧
      exec (decodeRnd c.rndWord).instr c = .next r ∧
      exec .run s = .next r.clockEdge ∧ r.clockEdge.regs = r.work.nxt

/-- The RUN cycle as one register-transfer rule (R16, R46, R56): every register's new value as a function of the registers and
the inputs of the cycle alone. -/
def Obligations.RunIsOneRegisterTransfer : Prop :=
  ∀ s : State, s.wf = true →
    ∃ t, exec .run s = .next t ∧ t.cfg = s.cfg ∧ t.Closed ∧ t.script = s.script.tail ∧ t.cycle = s.cycle + 1 ∧
      (∀ x : Channel,
        (t.regs.chan x).sync = s.inputs.btn x :: (s.regs.chan x).sync.dropLast ∧
        (t.regs.chan x).prev = s.lvl x ∧
        (t.regs.chan x).st =
          (match (s.regs.chan x).st with
           | .idle => if (s.regs.chan x).prev && !s.lvl x then .pending else .idle
           | .pending => if s.inputs.tick && s.tz x then .idle else .pending) ∧
        (t.regs.chan x).tmr =
          (match (s.regs.chan x).st with
           | .idle => if (s.regs.chan x).prev && !s.lvl x then s.cfg.debounceTicks else 0
           | .pending => if s.inputs.tick then (s.regs.chan x).tmr - 1 else (s.regs.chan x).tmr)) ∧
      (s.inputs.rst = false →
        t.regs.ctr =
          (match s.confirms .A, s.confirms .B with
           | false, false => s.regs.ctr
           | true, false => inc10 s.regs.ctr
           | false, true => dec10 s.regs.ctr
           | true, true => dec10 (inc10 s.regs.ctr)) ∧
        t.regs.rndValid = (s.confirms .A || s.confirms .B || (s.regs.rndValid && !s.inputs.rndReady)) ∧
        t.lastTaken = if s.handshake then some s.regs.ctr else s.lastTaken)

/-- R16: a row inside a cycle writes `S_(t+1)` only: whatever row is performed, the registers of the cycle, its configuration and
its inputs are those before it. No operation changes the configuration (R35). -/
def Obligations.RowsWriteTheNextStateOnly : Prop :=
  ∀ (i : Instr) (s t : State), exec i s = .next t →
    t.cfg = s.cfg ∧ (i.format ≠ .rst → t.regs = s.regs ∧ t.inputs = s.inputs ∧ t.script = s.script ∧ t.cycle = s.cycle)

/-- The two channels are lockstep parts of one step (R131): performing B's rows before A's gives the same cycle. -/
def Obligations.OrderOfTheChannelsIsOfNoConsequence : Prop :=
  ∀ s : State, s.wf = true → s.inputs.rst = false →
    step s = .next (rndPhase (ctrPhase (channelPhase .A (channelPhase .B s.openCycle)))).clockEdge

/-- A cycle starts from the registers alone (R37: no latched edge, no queued request): what the last cycle's signals and
next-state image were is of no consequence, and after every step none of them is left (log entry 2). -/
def Obligations.NothingIsLatchedBetweenCycles : Prop :=
  (∀ (s : State) (k : Work), s.wf = true → k.nxt.fits s.cfg = true → step { s with work := k } = step s) ∧
  (∀ s t : State, step s = .next t → t.Closed)

/-- R25: the outputs are copies of registers, so no input of a cycle shows at an output in that cycle. -/
def Obligations.OutputsAreRegisters : Prop :=
  (∀ s : State, s.digit = s.regs.ctr ∧ s.rndValidOut = s.regs.rndValid ∧
    (s.pend .A = true ↔ s.regs.chA.st = .pending) ∧ (s.pend .B = true ↔ s.regs.chB.st = .pending)) ∧
  (∀ (s : State) (l : List Inputs) (k : Nat) (x : Channel),
    ({ s with script := l, cycle := k } : State).digit = s.digit ∧
    ({ s with script := l, cycle := k } : State).rndValidOut = s.rndValidOut ∧
    ({ s with script := l, cycle := k } : State).pend x = s.pend x)

/-- The row `State.arrange` arranges is performed by the next cycle (log entry 10, the model's own). -/
def Obligations.ArrangedRowIsPerformed : Prop :=
  ∀ (s : State) (i : Instr), s.wf = true →
    i ∈ rowsPerformed (s.arrange i) ∧ ∃ t, step (s.arrange i) = .next t

/-! ## Synchroniser and edges over several cycles -/

/-- R70 and R71: in every RUN cycle the synchroniser shifts the pin level in, stage by stage, and `prev_X` takes the synchronised
level. -/
def Obligations.SynchroniserShiftsAndPrevFollows : Prop :=
  ∀ (s : State) (x : Channel), s.wf = true → s.inputs.rst = false →
    ∃ t, step s = .next t ∧ (t.regs.chan x).sync.length = s.cfg.syncStages ∧
      (t.regs.chan x).sync[0]? = some (s.inputs.btn x) ∧
      (∀ i, i + 1 < s.cfg.syncStages → (t.regs.chan x).sync[i + 1]? = (s.regs.chan x).sync[i]?) ∧
      (t.regs.chan x).prev = s.lvl x

/-- R72: `lvl_X` is the last stage, which is the pin level sampled `SYNC_STAGES` cycles earlier, or 1 where that cycle came before
the last reset. -/
def Obligations.LevelIsThePinSampledEarlier : Prop :=
  (∀ (s : State) (x : Channel), s.wf = true → some (s.lvl x) = (s.regs.chan x).sync[s.cfg.syncStages - 1]?) ∧
  (∀ (s : State) (x : Channel), s.wf = true → noReset s s.cfg.syncStages →
    ∃ t, runCycles s.cfg.syncStages s = .next t ∧ t.lvl x = (s.inputsAt 0).btn x) ∧
  (∀ (s : State) (x : Channel) (k : Nat), s.wf = true → s.inputs.rst = true → k < s.cfg.syncStages →
    (∀ j, 1 ≤ j → j ≤ k → (s.inputsAt j).rst = false) →
    ∃ t, runCycles (k + 1) s = .next t ∧ t.lvl x = true)

/-- R76: edge latency. From Idle with a synchroniser full of 1s, a press first sampled in this cycle lowers `lvl_X` and gives
`EDG.FALL` in the cycle `SYNC_STAGES` later, and `pend_X` rises one cycle after that and not before. Nothing is asked of the pin
after the first sample, so a pulse sampled once arms as well (R77). -/
def Obligations.PressArmsAfterTheSynchroniser : Prop :=
  ∀ (s : State) (x : Channel), s.wf = true → (s.regs.chan x).st = .idle →
    (s.regs.chan x).sync = List.replicate s.cfg.syncStages true → noReset s (s.cfg.syncStages + 1) →
    (s.inputsAt 0).btn x = false →
    (∃ t, runCycles s.cfg.syncStages s = .next t ∧ t.lvl x = false ∧ decodeEdg (t.edgWord x) = .fall) ∧
    (∀ k, k ≤ s.cfg.syncStages → ∃ t, runCycles k s = .next t ∧ t.pend x = false) ∧
    (∃ u, runCycles (s.cfg.syncStages + 1) s = .next u ∧ u.pend x = true ∧
      (u.regs.chan x).tmr = s.cfg.debounceTicks)

/-- R79: a button held through a reset cycle, and low in the RUN cycles after it, arms once the synchroniser has passed its level,
in the cycle `SYNC_STAGES` cycles after the first RUN cycle, and not before. -/
def Obligations.ButtonHeldThroughResetArms : Prop :=
  ∀ (s : State) (x : Channel), s.wf = true → s.inputs.rst = true →
    (∀ k, 1 ≤ k → k ≤ s.cfg.syncStages + 1 → (s.inputsAt k).rst = false ∧ (s.inputsAt k).btn x = false) →
    (∀ k, 1 ≤ k → k ≤ s.cfg.syncStages + 1 → ∃ t, runCycles k s = .next t ∧ t.pend x = false) ∧
    (∃ u, runCycles (s.cfg.syncStages + 2) s = .next u ∧ u.pend x = true)

/-! ## The debounce over several cycles -/

/-- R87: edges while PendingDebounce are discarded. The level of the cycle before, which is all an edge is made of, is of no
consequence in PendingDebounce, and `prev_X` is updated anyway. -/
def Obligations.EdgesWhilePendingAreDiscarded : Prop :=
  ∀ (s : State) (x : Channel) (b : Bool), s.wf = true → s.inputs.rst = false → (s.regs.chan x).st = .pending →
    step { s with regs := s.regs.setChan x { s.regs.chan x with prev := b } } = step s ∧
    ∃ t, step s = .next t ∧ (t.regs.chan x).prev = s.lvl x

/-- R89: no cancellation. A pending channel returns to Idle only by `BTN.CONFIRM` or `BTN.DROP` (or reset); without a tick it
stays pending, with its timer, for ever. -/
def Obligations.PendingEndsOnlyByAFire : Prop :=
  (∀ (s : State) (x : Channel), s.wf = true → (s.regs.chan x).st = .pending →
    ∃ t, step s = .next t ∧
      ((t.regs.chan x).st = .idle ↔
        .btnConfirm x ∈ rowsPerformed s ∨ .btnDrop x ∈ rowsPerformed s ∨ .reset ∈ rowsPerformed s)) ∧
  (∀ (s : State) (x : Channel) (n : Nat), s.wf = true → (s.regs.chan x).st = .pending → noReset s n →
    (∀ k, k < n → (s.inputsAt k).tick = false) →
    ∃ t, runCycles n s = .next t ∧ (t.regs.chan x).st = .pending ∧ (t.regs.chan x).tmr = (s.regs.chan x).tmr)

/-- R88: fire timing. A channel that arms in this cycle is pending, with the ticks still to wait in its timer and no confirm, until
the `(DEBOUNCE_TICKS + 1)`-th cycle after it with a tick; in that cycle it fires, and confirms exactly when the level is low. -/
def Obligations.FireComesAtTheLastTick : Prop :=
  ∀ (s s1 : State) (x : Channel) (n : Nat), s.wf = true → s.inputs.rst = false → (s.regs.chan x).st = .idle →
    (s.regs.chan x).prev = true → s.lvl x = false → step s = .next s1 → noReset s1 (n + 1) →
    tickCount s1 n = s.cfg.debounceTicks → (s1.inputsAt n).tick = true →
    (∀ k, k ≤ n → ∃ t, runCycles k s1 = .next t ∧ (t.regs.chan x).st = .pending ∧
      (t.regs.chan x).tmr = s.cfg.debounceTicks - tickCount s1 k ∧ (k < n → t.confirms x = false)) ∧
    (∃ t u, runCycles n s1 = .next t ∧ step t = .next u ∧ t.confirms x = !t.lvl x ∧
      (u.regs.chan x).st = .idle ∧ (u.regs.chan x).tmr = 0)

/-- R88, with a periodic tick: if `tick` is 1 exactly once every `P` cycles, the fire comes between `DEBOUNCE_TICKS·P + 1` and
`(DEBOUNCE_TICKS + 1)·P` cycles after the ARM edge. The arming cycle is this one; the tick comes in the cycles numbered
`p, p + P, ...` after it, with `p` from 1 to `P`. -/
def Obligations.FireTimingUnderAPeriodicTick : Prop :=
  ∀ (s s1 : State) (x : Channel) (P p : Nat), s.wf = true → s.inputs.rst = false → (s.regs.chan x).st = .idle →
    (s.regs.chan x).prev = true → s.lvl x = false → step s = .next s1 → 1 ≤ p → p ≤ P →
    noReset s1 ((s.cfg.debounceTicks + 1) * P) →
    (∀ k, k < (s.cfg.debounceTicks + 1) * P → ((s1.inputsAt k).tick = true ↔ (k + 1) % P = p % P)) →
    ∃ d, s.cfg.debounceTicks * P + 1 ≤ d ∧ d ≤ (s.cfg.debounceTicks + 1) * P ∧
      (∀ k, k < d → ∃ t, runCycles k s1 = .next t ∧ t.pend x = true) ∧
      ∃ u, runCycles d s1 = .next u ∧ u.pend x = false

/-- R91 and R144: one re-sample. At a fire `SYNC_STAGES` cycles from now, the press is confirmed exactly when the pin is low in
this cycle; the pin in the cycles between is not examined. -/
def Obligations.ResampleReadsOnePinLevel : Prop :=
  ∀ (s t : State) (x : Channel), s.wf = true → noReset s (s.cfg.syncStages + 1) →
    runCycles s.cfg.syncStages s = .next t → (t.regs.chan x).st = .pending → (t.regs.chan x).tmr = 0 →
    t.inputs.tick = true →
    (t.confirms x = true ↔ (s.inputsAt 0).btn x = false) ∧
    ∃ u, step t = .next u ∧ (u.regs.chan x).st = .idle

/-- R92: the channels are independent. Two states that agree on one channel's registers, the configuration, and this cycle's `rst`,
`tick` and pin of that channel agree on that channel after the step, whatever the other channel, the Counter and the request
are. -/
def Obligations.ChannelsAreIndependent : Prop :=
  ∀ (s1 s2 : State) (x : Channel), s1.wf = true → s2.wf = true → s1.cfg = s2.cfg →
    s1.regs.chan x = s2.regs.chan x → s1.inputs.rst = s2.inputs.rst → s1.inputs.tick = s2.inputs.tick →
    s1.inputs.btn x = s2.inputs.btn x →
    ∃ t1 t2, step s1 = .next t1 ∧ step s2 = .next t2 ∧ t1.regs.chan x = t2.regs.chan x

/-! ## The render request over several cycles -/

/-- R116: no back-pressure. Two states that differ at most in `rnd_valid`, in `rnd_ready` and in what the renderer took give the
same channels and the same Counter. -/
def Obligations.RendererExertsNoBackPressure : Prop :=
  ∀ s1 s2 : State, s1.wf = true → s2.wf = true → s1.cfg = s2.cfg →
    (∀ x : Channel, s1.regs.chan x = s2.regs.chan x) → s1.regs.ctr = s2.regs.ctr →
    s1.inputs.rst = s2.inputs.rst → s1.inputs.tick = s2.inputs.tick →
    (∀ x : Channel, s1.inputs.btn x = s2.inputs.btn x) →
    ∃ t1 t2, step s1 = .next t1 ∧ step s2 = .next t2 ∧ (∀ x : Channel, t1.regs.chan x = t2.regs.chan x) ∧
      t1.regs.ctr = t2.regs.ctr

/-- R115: with `rnd_ready = 1` in every cycle, no coalescing happens: the values taken are the one outstanding at the start (if any)
followed by every value the CTR rows write, in order, one each, but for the last, which may still be outstanding at the end. -/
def Obligations.ReadyRendererTakesEveryValue : Prop :=
  ∀ (n : Nat) (s : State), s.wf = true → noReset s n → (∀ k, k < n → (s.inputsAt k).rndReady = true) →
    ∃ t, runCycles n s = .next t ∧
      takenIn n s ++ (if t.regs.rndValid then [t.digit] else []) =
        (if s.regs.rndValid then [s.digit] else []) ++ writtenIn n s

/-- R115: when no request is outstanding, the last value the renderer took is the Counter: every step keeps it. -/
def Obligations.LastValueTakenIsTheCounter : Prop :=
  ∀ s t : State, s.RendererUpToDate → step s = .next t → t.RendererUpToDate

/-- In every run from reset, a state with no request outstanding is one whose Counter the renderer took last (R115). What it took is
the model's observation `lastTaken` (log entry 4). -/
def Obligations.RenderedDigitIsTheCounterInEveryRun : Prop :=
  ∀ (c : Config) (l : List Inputs) (n : Nat) (t : State), runCycles n (startState c l) = .next t →
    t.regs.rndValid = false → t.lastTaken = some t.digit

/-- R115: once `rnd_ready` has been 1 in some cycle after the last update, the last value taken is the final Counter, whatever
`rnd_ready` does in the other cycles. -/
def Obligations.RendererEndsWithTheFinalCounter : Prop :=
  ∀ (n k : Nat) (s : State), s.wf = true → s.RendererUpToDate → noReset s n → k < n →
    (s.inputsAt k).rndReady = true → writtenIn n s = [] →
    ∃ t, runCycles n s = .next t ∧ t.regs.rndValid = false ∧ t.lastTaken = some t.digit ∧ t.digit = s.digit

/-- R118: the startup render. From reset, with the renderer ready in the first RUN cycle, it takes 0 in that cycle; and no confirm
comes before `DEBOUNCE_TICKS + 1` ticks, so the Counter is 0 until then. -/
def Obligations.StartupRenderIsZero : Prop :=
  (∀ (c : Config) (l : List Inputs), c.legal = true → (startState c l).inputs.rst = false →
    (startState c l).inputs.rndReady = true →
    ∃ t, step (startState c l) = .next t ∧ t.lastTaken = some 0 ∧ t.regs.ctr = 0) ∧
  (∀ (c : Config) (l : List Inputs) (n : Nat), c.legal = true → noReset (startState c l) n →
    tickCount (startState c l) n ≤ c.debounceTicks →
    ∃ t, runCycles n (startState c l) = .next t ∧ t.regs.ctr = 0)

/-! ## Invariants -/

/-- R38: the three invariants are kept by every step. -/
def Obligations.StepKeepsTheInvariants : Prop :=
  ∀ s t : State, s.Inv → step s = .next t → t.Inv

/-- R38: the three invariants hold after reset, in every legal configuration and for any inputs to come. -/
def Obligations.InvariantsHoldAfterReset : Prop :=
  ∀ (c : Config) (l : List Inputs), c.legal = true → (startState c l).Inv

/-- R38: the three invariants hold in every state reached from reset. -/
def Obligations.EveryReachedStateKeepsTheInvariants : Prop :=
  ∀ t : State, Reachable t →
    t.regs.ctr.toNat ≤ 9 ∧
    ∀ x : Channel, ((t.regs.chan x).st = .idle → (t.regs.chan x).tmr = 0) ∧
      (t.regs.chan x).tmr ≤ t.cfg.debounceTicks

/-- Every operation keeps every register at its width and the configuration legal (R28, R29, R35; widths: log entry 6). -/
def Obligations.EveryOperationKeepsTheWidths : Prop :=
  ∀ (i : Instr) (s t : State), exec i s = .next t → s.wf = true ∧ t.wf = true

/-! ## Quiescence (R135) -/

/-- R135: in a quiescent state with both pins held high and no pulse still inside a synchroniser (log entry 15), only `sync_X` and
`prev_X` change; after `SYNC_STAGES + 1` cycles they are all 1 and only BTN.IDLE, EDG.HIGH, CTR.HOLD and RND.IDLE are performed. -/
def Obligations.QuiescentStateStaysQuiescent : Prop :=
  ∀ (s : State) (n : Nat), s.Inv → s.Quiescent → s.regs.chA.NoPulse → s.regs.chB.NoPulse → noReset s n →
    releasedFor s .A n → releasedFor s .B n →
    ∃ t, runCycles n s = .next t ∧ t.Quiescent ∧ t.regs.chA.tmr = 0 ∧ t.regs.chB.tmr = 0 ∧ t.regs.ctr = s.regs.ctr ∧
      t.lastTaken = s.lastTaken ∧
      (s.cfg.syncStages + 1 ≤ n → ∀ x : Channel,
        (t.regs.chan x).sync = List.replicate s.cfg.syncStages true ∧ (t.regs.chan x).prev = true ∧
        (t.inputs.rst = false → rowsPerformed t =
          [.run, .edgHigh .A, .btnIdle .A, .edgHigh .B, .btnIdle .B, .ctrHold, .rndIdle]))

/-- Why the last statement asks that no pulse is inside a synchroniser (log entry 15): there is a run from reset to a quiescent
state from which, with both pins high, BTN.ARM is performed. -/
def Obligations.PulseInFlightStillArms : Prop :=
  ∃ (l : List Inputs) (n : Nat) (s : State), runCycles n (startState Config.default l) = .next s ∧ s.Quiescent ∧
    noReset s 3 ∧ releasedFor s .A 3 ∧ releasedFor s .B 3 ∧
    ∃ t, runCycles 3 s = .next t ∧ t.pend .A = true

/-! ## The environment's duties (R133) -/

/-- R133, the tick source (with R89): under the tick duty alone, whatever the other inputs are, a pending channel fires: it stays pending
up to a cycle in which it confirms or drops (or the block is reset), and is Idle in the next. Where the ticks stop, it stays pending for
ever, with its timer. -/
def Obligations.PendingChannelFiresWhileTicksGoOn : Prop :=
  (∀ (s : State) (x : Channel) (e : InputStream), s.wf = true → (s.regs.chan x).st = .pending → TickDuty e →
    ∃ (n : Nat) (t u : State), cycleOn e s n = .next t ∧
      (.btnConfirm x ∈ rowsPerformed t ∨ .btnDrop x ∈ rowsPerformed t ∨ (e n).rst = true) ∧
      (∀ k, k ≤ n → ∃ r, cycleOn e s k = .next r ∧ r.pend x = true) ∧
      cycleOn e s (n + 1) = .next u ∧ u.pend x = false) ∧
  (∀ (s : State) (x : Channel) (e : InputStream), s.wf = true → (s.regs.chan x).st = .pending → NeverReset e →
    (∀ k, (e k).tick = false) →
    ∀ n, ∃ t, cycleOn e s n = .next t ∧ t.pend x = true ∧ (t.regs.chan x).tmr = (s.regs.chan x).tmr)

/-- R133, the renderer and the reset source. Under the renderer's duty an outstanding request stays until a handshake, at which the
renderer takes the digit of that cycle; a renderer that is never ready takes nothing and the request stays (what it takes is the model's
observation `lastTaken`, log entry 4). Under the reset source's duty the registers from cycle 1 on do not depend on what they were. -/
def Obligations.RendererAndResetDutiesSuffice : Prop :=
  (∀ (s : State) (e : InputStream), s.wf = true → s.regs.rndValid = true → NeverReset e → ReadyDuty e →
    ∃ (n : Nat) (t u : State), cycleOn e s n = .next t ∧ t.handshake = true ∧
      (∀ k, k ≤ n → ∃ r, cycleOn e s k = .next r ∧ r.regs.rndValid = true ∧ r.lastTaken = s.lastTaken) ∧
      cycleOn e s (n + 1) = .next u ∧ u.lastTaken = some t.digit) ∧
  (∀ (s : State) (e : InputStream), s.wf = true → s.regs.rndValid = true → NeverReset e → (∀ k, (e k).rndReady = false) →
    ∀ n, ∃ t, cycleOn e s n = .next t ∧ t.regs.rndValid = true ∧ t.lastTaken = s.lastTaken) ∧
  (∀ (s1 s2 : State) (e : InputStream), s1.wf = true → s2.wf = true → s1.cfg = s2.cfg → ResetDuty e →
    ∀ n, ∃ t1 t2, cycleOn e s1 (n + 1) = .next t1 ∧ cycleOn e s2 (n + 1) = .next t2 ∧ t1.regs = t2.regs)

end
end

