-- ==== Sys2Proof/Laws/State.lean ====
section
/-! SUPPORT. The small lemmas of the state: one per field per update, and one per spelling of a write. The writes of a row are
brought to the one form `onNxt`, whose fields are then read off. -/

namespace Sys2Proof.Machine

open Sys2Proof

/-! ## Channels -/

@[simp] theorem Channel.other_A : Channel.A.other = .B := rfl
@[simp] theorem Channel.other_B : Channel.B.other = .A := rfl
@[simp] theorem Channel.other_ne (x : Channel) : x.other ≠ x := by cases x <;> decide

@[simp] theorem Regs.chan_A (r : Regs) : r.chan .A = r.chA := rfl
@[simp] theorem Regs.chan_B (r : Regs) : r.chan .B = r.chB := rfl
@[simp] theorem Regs.chan_setChan (r : Regs) (x : Channel) (c : Chan) : (r.setChan x c).chan x = c := by cases x <;> rfl
@[simp] theorem Regs.chan_setChan_other (r : Regs) (x : Channel) (c : Chan) :
    (r.setChan x c).chan x.other = r.chan x.other := by cases x <;> rfl
theorem Regs.chan_setChan_ne (r : Regs) {x y : Channel} (c : Chan) (h : y ≠ x) : (r.setChan x c).chan y = r.chan y := by
  cases x <;> cases y <;> first | rfl | exact absurd rfl h
@[simp] theorem Regs.setChan_ctr (r : Regs) (x : Channel) (c : Chan) : (r.setChan x c).ctr = r.ctr := by cases x <;> rfl
@[simp] theorem Regs.setChan_rndValid (r : Regs) (x : Channel) (c : Chan) : (r.setChan x c).rndValid = r.rndValid := by
  cases x <;> rfl
@[simp] theorem Regs.setChan_A (r : Regs) (c : Chan) : r.setChan .A c = { r with chA := c } := rfl
@[simp] theorem Regs.setChan_B (r : Regs) (c : Chan) : r.setChan .B c = { r with chB := c } := rfl

@[simp] theorem Work.fall_A (k : Work) : k.fall .A = k.fallA := rfl
@[simp] theorem Work.fall_B (k : Work) : k.fall .B = k.fallB := rfl
@[simp] theorem Work.conf_A (k : Work) : k.conf .A = k.confA := rfl
@[simp] theorem Work.conf_B (k : Work) : k.conf .B = k.confB := rfl

@[simp] theorem ChanState.bit_idle : ChanState.idle.bit = false := rfl
@[simp] theorem ChanState.bit_pending : ChanState.pending.bit = true := rfl
theorem ChanState.bit_eq_true {v : ChanState} : v.bit = true ↔ v = .pending := by cases v <;> simp
theorem ChanState.bit_eq_false {v : ChanState} : v.bit = false ↔ v = .idle := by cases v <;> simp

/-! ## Writes, in the one form `onNxt` -/

@[simp] theorem State.onChan_eq (s : State) (x : Channel) (f : Chan → Chan) :
    s.onChan x f = s.onNxt fun r => r.setChan x (f (r.chan x)) := rfl
@[simp] theorem State.writeSt_eq (s : State) (x : Channel) (v : ChanState) :
    s.writeSt x v = s.onNxt fun r => r.setChan x { r.chan x with st := v } := rfl
@[simp] theorem State.writeTmr_eq (s : State) (x : Channel) (v : Nat) :
    s.writeTmr x v = s.onNxt fun r => r.setChan x { r.chan x with tmr := zextTmr s.cfg v } := rfl
@[simp] theorem State.writeSync_eq (s : State) (x : Channel) (v : List Bool) :
    s.writeSync x v = s.onNxt fun r => r.setChan x { r.chan x with sync := v } := rfl
@[simp] theorem State.writePrev_eq (s : State) (x : Channel) (v : Bool) :
    s.writePrev x v = s.onNxt fun r => r.setChan x { r.chan x with prev := v } := rfl
@[simp] theorem State.writeCtr_eq (s : State) (v : Digit) : s.writeCtr v = s.onNxt fun r => { r with ctr := v } := rfl
@[simp] theorem State.writeRndValid_eq (s : State) (v : Bool) :
    s.writeRndValid v = s.onNxt fun r => { r with rndValid := v } := rfl

@[simp] theorem State.onNxt_cfg (s : State) (f : Regs → Regs) : (s.onNxt f).cfg = s.cfg := rfl
@[simp] theorem State.onNxt_regs (s : State) (f : Regs → Regs) : (s.onNxt f).regs = s.regs := rfl
@[simp] theorem State.onNxt_script (s : State) (f : Regs → Regs) : (s.onNxt f).script = s.script := rfl
@[simp] theorem State.onNxt_cycle (s : State) (f : Regs → Regs) : (s.onNxt f).cycle = s.cycle := rfl
@[simp] theorem State.onNxt_lastTaken (s : State) (f : Regs → Regs) : (s.onNxt f).lastTaken = s.lastTaken := rfl
@[simp] theorem State.onNxt_nxt (s : State) (f : Regs → Regs) : (s.onNxt f).work.nxt = f s.work.nxt := rfl
@[simp] theorem State.onNxt_fall (s : State) (f : Regs → Regs) (x : Channel) :
    (s.onNxt f).work.fall x = s.work.fall x := by cases x <;> rfl
@[simp] theorem State.onNxt_conf (s : State) (f : Regs → Regs) (x : Channel) :
    (s.onNxt f).work.conf x = s.work.conf x := by cases x <;> rfl
@[simp] theorem State.onNxt_fallA (s : State) (f : Regs → Regs) : (s.onNxt f).work.fallA = s.work.fallA := rfl
@[simp] theorem State.onNxt_fallB (s : State) (f : Regs → Regs) : (s.onNxt f).work.fallB = s.work.fallB := rfl
@[simp] theorem State.onNxt_confA (s : State) (f : Regs → Regs) : (s.onNxt f).work.confA = s.work.confA := rfl
@[simp] theorem State.onNxt_confB (s : State) (f : Regs → Regs) : (s.onNxt f).work.confB = s.work.confB := rfl
@[simp] theorem State.onNxt_inputs (s : State) (f : Regs → Regs) : (s.onNxt f).inputs = s.inputs := rfl

/-! ## Signals -/

@[simp] theorem State.driveFall_cfg (s : State) (x : Channel) (b : Bool) : (s.driveFall x b).cfg = s.cfg := by cases x <;> rfl
@[simp] theorem State.driveFall_regs (s : State) (x : Channel) (b : Bool) : (s.driveFall x b).regs = s.regs := by
  cases x <;> rfl
@[simp] theorem State.driveFall_script (s : State) (x : Channel) (b : Bool) : (s.driveFall x b).script = s.script := by
  cases x <;> rfl
@[simp] theorem State.driveFall_cycle (s : State) (x : Channel) (b : Bool) : (s.driveFall x b).cycle = s.cycle := by
  cases x <;> rfl
@[simp] theorem State.driveFall_lastTaken (s : State) (x : Channel) (b : Bool) :
    (s.driveFall x b).lastTaken = s.lastTaken := by cases x <;> rfl
@[simp] theorem State.driveFall_nxt (s : State) (x : Channel) (b : Bool) : (s.driveFall x b).work.nxt = s.work.nxt := by
  cases x <;> rfl
@[simp] theorem State.driveFall_fall (s : State) (x : Channel) (b : Bool) : (s.driveFall x b).work.fall x = b := by
  cases x <;> rfl
@[simp] theorem State.driveFall_fall_other (s : State) (x : Channel) (b : Bool) :
    (s.driveFall x b).work.fall x.other = s.work.fall x.other := by cases x <;> rfl
@[simp] theorem State.driveFall_conf (s : State) (x y : Channel) (b : Bool) :
    (s.driveFall x b).work.conf y = s.work.conf y := by cases x <;> cases y <;> rfl
@[simp] theorem State.driveFall_confA (s : State) (x : Channel) (b : Bool) :
    (s.driveFall x b).work.confA = s.work.confA := by cases x <;> rfl
@[simp] theorem State.driveFall_confB (s : State) (x : Channel) (b : Bool) :
    (s.driveFall x b).work.confB = s.work.confB := by cases x <;> rfl
@[simp] theorem State.driveFall_inputs (s : State) (x : Channel) (b : Bool) : (s.driveFall x b).inputs = s.inputs := by
  cases x <;> rfl

@[simp] theorem State.driveConf_cfg (s : State) (x : Channel) (b : Bool) : (s.driveConf x b).cfg = s.cfg := by cases x <;> rfl
@[simp] theorem State.driveConf_regs (s : State) (x : Channel) (b : Bool) : (s.driveConf x b).regs = s.regs := by
  cases x <;> rfl
@[simp] theorem State.driveConf_script (s : State) (x : Channel) (b : Bool) : (s.driveConf x b).script = s.script := by
  cases x <;> rfl
@[simp] theorem State.driveConf_cycle (s : State) (x : Channel) (b : Bool) : (s.driveConf x b).cycle = s.cycle := by
  cases x <;> rfl
@[simp] theorem State.driveConf_lastTaken (s : State) (x : Channel) (b : Bool) :
    (s.driveConf x b).lastTaken = s.lastTaken := by cases x <;> rfl
@[simp] theorem State.driveConf_nxt (s : State) (x : Channel) (b : Bool) : (s.driveConf x b).work.nxt = s.work.nxt := by
  cases x <;> rfl
@[simp] theorem State.driveConf_conf (s : State) (x : Channel) (b : Bool) : (s.driveConf x b).work.conf x = b := by
  cases x <;> rfl
@[simp] theorem State.driveConf_conf_other (s : State) (x : Channel) (b : Bool) :
    (s.driveConf x b).work.conf x.other = s.work.conf x.other := by cases x <;> rfl
@[simp] theorem State.driveConf_fall (s : State) (x y : Channel) (b : Bool) :
    (s.driveConf x b).work.fall y = s.work.fall y := by cases x <;> cases y <;> rfl
@[simp] theorem State.driveConf_fallA (s : State) (x : Channel) (b : Bool) :
    (s.driveConf x b).work.fallA = s.work.fallA := by cases x <;> rfl
@[simp] theorem State.driveConf_fallB (s : State) (x : Channel) (b : Bool) :
    (s.driveConf x b).work.fallB = s.work.fallB := by cases x <;> rfl
@[simp] theorem State.driveConf_inputs (s : State) (x : Channel) (b : Bool) : (s.driveConf x b).inputs = s.inputs := by
  cases x <;> rfl

@[simp] theorem State.driveFall_A_fallA (s : State) (b : Bool) : (s.driveFall .A b).work.fallA = b := rfl
@[simp] theorem State.driveFall_A_fallB (s : State) (b : Bool) : (s.driveFall .A b).work.fallB = s.work.fallB := rfl
@[simp] theorem State.driveFall_B_fallA (s : State) (b : Bool) : (s.driveFall .B b).work.fallA = s.work.fallA := rfl
@[simp] theorem State.driveFall_B_fallB (s : State) (b : Bool) : (s.driveFall .B b).work.fallB = b := rfl
@[simp] theorem State.driveConf_A_confA (s : State) (b : Bool) : (s.driveConf .A b).work.confA = b := rfl
@[simp] theorem State.driveConf_A_confB (s : State) (b : Bool) : (s.driveConf .A b).work.confB = s.work.confB := rfl
@[simp] theorem State.driveConf_B_confA (s : State) (b : Bool) : (s.driveConf .B b).work.confA = s.work.confA := rfl
@[simp] theorem State.driveConf_B_confB (s : State) (b : Bool) : (s.driveConf .B b).work.confB = b := rfl

/-! ## The renderer, the opening of a cycle, the clock edge -/

@[simp] theorem State.rendererTakes_cfg (s : State) (v : Digit) : (s.rendererTakes v).cfg = s.cfg := rfl
@[simp] theorem State.rendererTakes_regs (s : State) (v : Digit) : (s.rendererTakes v).regs = s.regs := rfl
@[simp] theorem State.rendererTakes_work (s : State) (v : Digit) : (s.rendererTakes v).work = s.work := rfl
@[simp] theorem State.rendererTakes_script (s : State) (v : Digit) : (s.rendererTakes v).script = s.script := rfl
@[simp] theorem State.rendererTakes_cycle (s : State) (v : Digit) : (s.rendererTakes v).cycle = s.cycle := rfl
@[simp] theorem State.rendererTakes_lastTaken (s : State) (v : Digit) : (s.rendererTakes v).lastTaken = some v := rfl
@[simp] theorem State.rendererTakes_inputs (s : State) (v : Digit) : (s.rendererTakes v).inputs = s.inputs := rfl

@[simp] theorem State.openCycle_cfg (s : State) : s.openCycle.cfg = s.cfg := rfl
@[simp] theorem State.openCycle_regs (s : State) : s.openCycle.regs = s.regs := rfl
@[simp] theorem State.openCycle_work (s : State) : s.openCycle.work = Work.closed s.regs := rfl
@[simp] theorem State.openCycle_script (s : State) : s.openCycle.script = s.script := rfl
@[simp] theorem State.openCycle_cycle (s : State) : s.openCycle.cycle = s.cycle := rfl
@[simp] theorem State.openCycle_lastTaken (s : State) : s.openCycle.lastTaken = s.lastTaken := rfl
@[simp] theorem State.openCycle_inputs (s : State) : s.openCycle.inputs = s.inputs := rfl

@[simp] theorem State.clockEdge_cfg (s : State) : s.clockEdge.cfg = s.cfg := rfl
@[simp] theorem State.clockEdge_regs (s : State) : s.clockEdge.regs = s.work.nxt := rfl
@[simp] theorem State.clockEdge_work (s : State) : s.clockEdge.work = Work.closed s.work.nxt := rfl
@[simp] theorem State.clockEdge_script (s : State) : s.clockEdge.script = s.script.tail := rfl
@[simp] theorem State.clockEdge_cycle (s : State) : s.clockEdge.cycle = s.cycle + 1 := rfl
@[simp] theorem State.clockEdge_lastTaken (s : State) : s.clockEdge.lastTaken = s.lastTaken := rfl

@[simp] theorem Work.closed_nxt (r : Regs) : (Work.closed r).nxt = r := rfl
@[simp] theorem Work.closed_fall (r : Regs) (x : Channel) : (Work.closed r).fall x = false := by cases x <;> rfl
@[simp] theorem Work.closed_conf (r : Regs) (x : Channel) : (Work.closed r).conf x = false := by cases x <;> rfl
@[simp] theorem Work.closed_confA (r : Regs) : (Work.closed r).confA = false := rfl
@[simp] theorem Work.closed_confB (r : Regs) : (Work.closed r).confB = false := rfl
@[simp] theorem Work.closed_fallA (r : Regs) : (Work.closed r).fallA = false := rfl
@[simp] theorem Work.closed_fallB (r : Regs) : (Work.closed r).fallB = false := rfl

/-! ## The state a run starts from -/

@[simp] theorem startState_cfg (c : Config) (l : List Inputs) : (startState c l).cfg = c := rfl
@[simp] theorem startState_regs (c : Config) (l : List Inputs) : (startState c l).regs = Regs.reset c := rfl
@[simp] theorem startState_lastTaken (c : Config) (l : List Inputs) : (startState c l).lastTaken = none := rfl
@[simp] theorem Regs.reset_chan (c : Config) (x : Channel) : (Regs.reset c).chan x = Chan.reset c := by cases x <;> rfl
@[simp] theorem Regs.reset_ctr (c : Config) : (Regs.reset c).ctr = 0 := rfl
@[simp] theorem Regs.reset_rndValid (c : Config) : (Regs.reset c).rndValid = true := rfl

end Sys2Proof.Machine
end

