-- ==== Sys2Proof/Laws/Ops.lean ====
section
/-! SUPPORT. One lemma per shared operation: the guard, the timer arithmetic, the synchroniser, the inputs. -/

namespace Sys2Proof.Machine

open Sys2Proof

/-! ## Configuration and widths -/

theorem Config.legal_iff (c : Config) : c.legal = true ↔
    1 ≤ c.debounceTicks ∧ c.debounceTicks ≤ 2 ^ c.tmrW - 1 ∧ 1 ≤ c.tmrW ∧ 1 ≤ c.syncStages := by
  unfold Config.legal Config.violations
  by_cases h1 : 1 ≤ c.debounceTicks <;> by_cases h2 : c.debounceTicks ≤ 2 ^ c.tmrW - 1 <;>
    by_cases h3 : 1 ≤ c.tmrW <;> by_cases h4 : 1 ≤ c.syncStages <;> simp [h1, h2, h3, h4]

theorem Chan.fits_iff (cfg : Config) (c : Chan) :
    c.fits cfg = true ↔ c.tmr < 2 ^ cfg.tmrW ∧ c.sync.length = cfg.syncStages := by simp [Chan.fits]

theorem Regs.fits_iff (cfg : Config) (r : Regs) : r.fits cfg = true ↔ ∀ x : Channel, (r.chan x).fits cfg = true := by
  constructor
  · intro h x
    simp only [Regs.fits, Bool.and_eq_true] at h
    cases x
    · exact h.1
    · exact h.2
  · intro h
    simp only [Regs.fits, Bool.and_eq_true]
    exact ⟨h .A, h .B⟩

theorem State.wf_iff (s : State) : s.wf = true ↔
    s.cfg.legal = true ∧ s.regs.fits s.cfg = true ∧ s.work.nxt.fits s.cfg = true := by
  simp [State.wf, State.fits]

/-- What a well-formed state says of a channel's registers. -/
theorem State.wf_chan {s : State} (h : s.wf = true) (x : Channel) :
    (s.regs.chan x).tmr < 2 ^ s.cfg.tmrW ∧ (s.regs.chan x).sync.length = s.cfg.syncStages :=
  (Chan.fits_iff _ _).1 ((Regs.fits_iff _ _).1 ((State.wf_iff s).1 h).2.1 x)

theorem State.wf_legal {s : State} (h : s.wf = true) : s.cfg.legal = true := ((State.wf_iff s).1 h).1

/-! ## The guard -/

/-- The guard answers a next state exactly on the states of a legally configured block. -/
theorem onBlock_eq_next {s t : State} {f : State → State} : onBlock s f = .next t ↔ s.wf = true ∧ f s = t := by
  unfold onBlock State.wf
  by_cases h1 : s.cfg.legal = true <;> by_cases h2 : s.fits = true <;> simp [h1, h2]

theorem onBlock_of_wf {s : State} (h : s.wf = true) (f : State → State) : onBlock s f = .next (f s) :=
  onBlock_eq_next.2 ⟨h, rfl⟩

/-- The guard never faults. -/
theorem onBlock_ne_fault (s : State) (f : State → State) (r : Fault) : onBlock s f ≠ .fault r := nomatch r

/-- What the guard refuses, and why. -/
theorem onBlock_eq_refused {s : State} {f : State → State} {r : Refusal} : onBlock s f = .refused r ↔
    (r = .illegalConfig ∧ s.cfg.legal = false) ∨ (r = .misfit ∧ s.cfg.legal = true ∧ s.fits = false) := by
  unfold onBlock
  by_cases h1 : s.cfg.legal = true <;> by_cases h2 : s.fits = true <;> simp [h1, h2, eq_comm]

/-! ## The timer's arithmetic -/

theorem zextTmr_lt (c : Config) (n : Nat) : zextTmr c n < 2 ^ c.tmrW := Nat.mod_lt _ (Nat.two_pow_pos _)

theorem zextTmr_of_lt {c : Config} {n : Nat} (h : n < 2 ^ c.tmrW) : zextTmr c n = n := Nat.mod_eq_of_lt h

@[simp] theorem zextTmr_zero (c : Config) : zextTmr c 0 = 0 := Nat.zero_mod _

@[simp] theorem zextTmr_zextTmr (c : Config) (n : Nat) : zextTmr c (zextTmr c n) = zextTmr c n := Nat.mod_mod _ _

/-- `DEBOUNCE_TICKS` fits a timer slot of a legal configuration (R14). -/
theorem zextTmr_debounceTicks {c : Config} (h : c.legal = true) : zextTmr c c.debounceTicks = c.debounceTicks := by
  have hl := (Config.legal_iff c).1 h
  exact zextTmr_of_lt (by have := Nat.two_pow_pos c.tmrW; omega)

/-- Where a timer has not run out, BTN.COUNT takes one off without a wrap (R84). -/
theorem tmrPred_of_pos {c : Config} {n : Nat} (h1 : 1 ≤ n) (h2 : n < 2 ^ c.tmrW) : tmrPred c n = n - 1 := by
  unfold tmrPred zextTmr
  rw [show n + (2 ^ c.tmrW - 1) = (n - 1) + 2 ^ c.tmrW by omega, Nat.add_mod_right, Nat.mod_eq_of_lt (by omega)]

/-! ## The synchroniser -/

/-- Shifting into a synchroniser of at least one stage drops its last stage (R70). -/
theorem shiftIn_eq {c : Config} {sync : List Bool} (hs : sync.length = c.syncStages) (h1 : 1 ≤ c.syncStages) (b : Bool) :
    shiftIn c b sync = b :: sync.dropLast := by
  unfold shiftIn
  obtain ⟨k, hk⟩ : ∃ k, c.syncStages = k + 1 := ⟨c.syncStages - 1, by omega⟩
  rw [hk, List.take_succ_cons, List.dropLast_eq_take, hs, hk, Nat.add_sub_cancel]

theorem shiftIn_length {c : Config} {sync : List Bool} (hs : sync.length = c.syncStages) (b : Bool) :
    (shiftIn c b sync).length = c.syncStages := by simp [shiftIn, hs]

/-! ## The inputs -/

/-- The inputs of the coming cycles after one cycle are those of the cycles after this one. -/
theorem State.inputsAt_of_tail {s t : State} (h1 : t.script = s.script.tail) (h2 : t.cycle = s.cycle + 1) (k : Nat) :
    t.inputsAt k = s.inputsAt (k + 1) := by
  unfold State.inputsAt
  rw [h1, h2, List.getElem?_tail, show s.cycle + 1 + k = s.cycle + (k + 1) by omega]

/-- Inputs depend on the script and the count of cycles alone. -/
theorem State.inputsAt_congr {s t : State} (h1 : t.script = s.script) (h2 : t.cycle = s.cycle) (k : Nat) :
    t.inputsAt k = s.inputsAt k := by unfold State.inputsAt; rw [h1, h2]

end Sys2Proof.Machine
end

