-- ==== Sys2Proof/Laws/Cycle.lean ====
section
/-! SUPPORT. What a step can do, and one closed form per phase of a RUN cycle, so that no later proof unfolds the rows again. -/

namespace Sys2Proof.Machine

open Sys2Proof

/-! ## Operations and steps -/

/-- The effect of each operation behind its guard. -/
def effectOf : Instr → State → State
  | .reset => fun s => (resetRows s).clockEdge
  | .run => fun s => (runRows s).clockEdge
  | .edgFall x => edgFall x
  | .edgLow x => edgLow x
  | .edgHigh x => edgHigh x
  | .btnIdle x => btnIdle x
  | .btnArm x => btnArm x
  | .btnWait x => btnWait x
  | .btnCount x => btnCount x
  | .btnConfirm x => btnConfirm x
  | .btnDrop x => btnDrop x
  | .ctrHold => ctrHold
  | .ctrInc => ctrInc
  | .ctrDec => ctrDec
  | .ctrBoth => ctrBoth
  | .rndIdle => rndIdle
  | .rndWait => rndWait
  | .rndTake => rndTake
  | .rndPost => rndPost

/-- Every operation is its effect behind the one guard. -/
theorem exec_eq_onBlock (i : Instr) (s : State) : exec i s = onBlock s (effectOf i) := by cases i <;> rfl

/-- When an operation answers a next state: exactly on the states of a legally configured block. -/
theorem exec_eq_next {i : Instr} {s t : State} : exec i s = .next t ↔ s.wf = true ∧ effectOf i s = t := by
  rw [exec_eq_onBlock]; exact onBlock_eq_next

/-- What a step can do: RESET where `rst = 1`, RUN where `rst = 0`, each up to the clock edge. -/
theorem step_eq_next {s t : State} : step s = .next t ↔
    s.wf = true ∧ ((s.inputs.rst = true ∧ (resetRows s).clockEdge = t) ∨
      (s.inputs.rst = false ∧ (runRows s).clockEdge = t)) := by
  unfold step State.rstWord
  cases hr : s.inputs.rst
  · have hd : (decodeRst (BitVec.ofBool false)).instr = .run := by decide
    rw [hd, exec_eq_next]
    simp [effectOf]
  · have hd : (decodeRst (BitVec.ofBool true)).instr = .reset := by decide
    rw [hd, exec_eq_next]
    simp [effectOf]

theorem step_of_reset {s : State} (h : s.wf = true) (hr : s.inputs.rst = true) : step s = .next (resetRows s).clockEdge :=
  step_eq_next.2 ⟨h, .inl ⟨hr, rfl⟩⟩

theorem step_of_run {s : State} (h : s.wf = true) (hr : s.inputs.rst = false) : step s = .next (runRows s).clockEdge :=
  step_eq_next.2 ⟨h, .inr ⟨hr, rfl⟩⟩

/-- The writes of RESET: every register at its reset value (R140). -/
theorem resetRows_nxt (s : State) : (resetRows s).work.nxt = Regs.reset s.cfg := by
  simp [resetRows, resetChan, Regs.reset, Chan.reset]

@[simp] theorem resetRows_cfg (s : State) : (resetRows s).cfg = s.cfg := by simp [resetRows, resetChan]
@[simp] theorem resetRows_script (s : State) : (resetRows s).script = s.script := by simp [resetRows, resetChan]
@[simp] theorem resetRows_cycle (s : State) : (resetRows s).cycle = s.cycle := by simp [resetRows, resetChan]
@[simp] theorem resetRows_lastTaken (s : State) : (resetRows s).lastTaken = s.lastTaken := by simp [resetRows, resetChan]

/-! ## The EDG phase -/

/-- The EDG row selected drives `fall_X`: 1 exactly for a level that was high and is low (R73 to R75). -/
theorem edgPhase_eq (x : Channel) (s : State) : edgPhase x s = s.driveFall x ((s.regs.chan x).prev && !s.lvl x) := by
  unfold edgPhase State.edgWord
  cases (s.regs.chan x).prev <;> cases s.lvl x <;> rfl

/-! ## The BTN phase -/

/-- The level a channel's rows read (R72). -/
def Chan.level (cfg : Config) (c : Chan) : Bool := c.sync.getD (cfg.syncStages - 1) true

/-- The state of a channel after a RUN cycle. -/
def Chan.nextSt (fall tick : Bool) (c : Chan) : ChanState :=
  match c.st with
  | .idle => if fall then .pending else .idle
  | .pending => if tick && c.tmr == 0 then .idle else .pending

/-- The timer of a channel after a RUN cycle. -/
def Chan.nextTmr (cfg : Config) (fall tick : Bool) (c : Chan) : Nat :=
  match c.st with
  | .idle => if fall then zextTmr cfg cfg.debounceTicks else 0
  | .pending => if tick then (if c.tmr == 0 then 0 else tmrPred cfg c.tmr) else zextTmr cfg c.tmr

/-- The timer's new value has its width already. -/
theorem Chan.zextTmr_nextTmr (cfg : Config) (fall tick : Bool) (c : Chan) :
    zextTmr cfg (c.nextTmr cfg fall tick) = c.nextTmr cfg fall tick := by
  unfold Chan.nextTmr
  cases c.st <;> cases fall <;> cases tick <;> simp
  all_goals split <;> simp [tmrPred]

/-- Whether a channel confirms in a RUN cycle (R85). -/
def Chan.conf (cfg : Config) (tick : Bool) (c : Chan) : Bool := c.st.bit && tick && c.tmr == 0 && !c.level cfg

/-- The BTN row selected, in one form (R81 to R86). -/
theorem btnPhase_eq (x : Channel) (s : State) : btnPhase x s =
    s.btnRow x ((s.regs.chan x).nextSt (s.work.fall x) s.inputs.tick)
      ((s.regs.chan x).nextTmr s.cfg (s.work.fall x) s.inputs.tick) ((s.regs.chan x).conf s.cfg s.inputs.tick) := by
  unfold btnPhase State.btnWord State.tz Chan.nextSt Chan.nextTmr Chan.conf Chan.level
  rw [show s.lvl x = (s.regs.chan x).sync.getD (s.cfg.syncStages - 1) true from rfl]
  have hz : ∀ n : Nat, n = 0 → (n == 0) = true := by intro n h; simp [h]
  cases hst : (s.regs.chan x).st <;> cases hf : s.work.fall x <;> cases ht : s.inputs.tick <;>
    cases hz : ((s.regs.chan x).tmr == 0) <;>
    cases hl : (s.regs.chan x).sync.getD (s.cfg.syncStages - 1) true <;>
    simp [ChanState.bit, decodeBtn, performBtn, btnIdle, btnArm, btnWait, btnCount, btnConfirm, btnDrop,
      State.btnRow]

/-! ## A channel's part of a RUN cycle -/

/-- The registers of a channel after a RUN cycle, as a function of the configuration, the tick, the pin and the registers of that
channel alone. -/
def Chan.next (cfg : Config) (tick btn : Bool) (c : Chan) : Chan :=
  { st := c.nextSt (c.prev && !c.level cfg) tick
    tmr := c.nextTmr cfg (c.prev && !c.level cfg) tick
    sync := shiftIn cfg btn c.sync
    prev := c.level cfg }

section channelPhase
variable (x : Channel) (s : State)

theorem channelPhase_nxt : (channelPhase x s).work.nxt =
    s.work.nxt.setChan x ((s.regs.chan x).next s.cfg s.inputs.tick (s.inputs.btn x)) := by
  unfold channelPhase
  rw [edgPhase_eq, btnPhase_eq]
  cases x <;>
    simp [prevLatch, syncShift, State.btnRow, Chan.next, Chan.level, State.lvl, Chan.zextTmr_nextTmr]

@[simp] theorem channelPhase_cfg : (channelPhase x s).cfg = s.cfg := by
  unfold channelPhase; rw [edgPhase_eq, btnPhase_eq]; simp [prevLatch, syncShift, State.btnRow]
@[simp] theorem channelPhase_regs : (channelPhase x s).regs = s.regs := by
  unfold channelPhase; rw [edgPhase_eq, btnPhase_eq]; simp [prevLatch, syncShift, State.btnRow]
@[simp] theorem channelPhase_script : (channelPhase x s).script = s.script := by
  unfold channelPhase; rw [edgPhase_eq, btnPhase_eq]; simp [prevLatch, syncShift, State.btnRow]
@[simp] theorem channelPhase_cycle : (channelPhase x s).cycle = s.cycle := by
  unfold channelPhase; rw [edgPhase_eq, btnPhase_eq]; simp [prevLatch, syncShift, State.btnRow]
@[simp] theorem channelPhase_lastTaken : (channelPhase x s).lastTaken = s.lastTaken := by
  unfold channelPhase; rw [edgPhase_eq, btnPhase_eq]; simp [prevLatch, syncShift, State.btnRow]
@[simp] theorem channelPhase_inputs : (channelPhase x s).inputs = s.inputs :=
  State.inputsAt_congr (channelPhase_script x s) (channelPhase_cycle x s) 0
@[simp] theorem channelPhase_conf :
    (channelPhase x s).work.conf x = (s.regs.chan x).conf s.cfg s.inputs.tick := by
  unfold channelPhase; rw [edgPhase_eq, btnPhase_eq]; simp [prevLatch, syncShift, State.btnRow]
@[simp] theorem channelPhase_conf_other : (channelPhase x s).work.conf x.other = s.work.conf x.other := by
  unfold channelPhase; rw [edgPhase_eq, btnPhase_eq]; simp [prevLatch, syncShift, State.btnRow]
@[simp] theorem channelPhase_fall : (channelPhase x s).work.fall x = ((s.regs.chan x).prev && !s.lvl x) := by
  unfold channelPhase; rw [edgPhase_eq, btnPhase_eq]; simp [prevLatch, syncShift, State.btnRow]
@[simp] theorem channelPhase_fall_other : (channelPhase x s).work.fall x.other = s.work.fall x.other := by
  unfold channelPhase; rw [edgPhase_eq, btnPhase_eq]; simp [prevLatch, syncShift, State.btnRow]

end channelPhase

/-! ## The CTR phase and the RND phase -/

/-- The Counter after the CTR row the two confirms select (R102 to R105). -/
def counterAfter (confA confB : Bool) (v : Digit) : Digit :=
  match confA, confB with
  | false, false => v
  | true, false => inc10 v
  | false, true => dec10 v
  | true, true => dec10 (inc10 v)

theorem ctrPhase_eq (s : State) : ctrPhase s = s.writeCtr (counterAfter s.work.confA s.work.confB s.regs.ctr) := by
  unfold ctrPhase State.ctrWord counterAfter
  cases s.work.confA <;> cases s.work.confB <;> rfl

theorem rndPhase_eq (s : State) : rndPhase s =
    (if s.regs.rndValid && s.inputs.rndReady then s.rendererTakes s.digit else s).writeRndValid
      (s.upd || (s.regs.rndValid && !s.inputs.rndReady)) := by
  unfold rndPhase State.rndWord
  cases hu : s.upd <;> cases hv : s.regs.rndValid <;> cases hr : s.inputs.rndReady <;>
    simp [decodeRnd, performRnd, rndIdle, rndWait, rndTake, rndPost, hv, hr]

/-! ## The whole RUN cycle -/

section runRows
variable (s : State)

/-- Whether a channel confirms in this RUN cycle, from the registers and the tick. -/
def State.chanConf (x : Channel) : Bool := (s.regs.chan x).conf s.cfg s.inputs.tick

theorem runRows_confs :
    (channelPhase .B (channelPhase .A s.openCycle)).work.confA = s.chanConf .A ∧
    (channelPhase .B (channelPhase .A s.openCycle)).work.confB = s.chanConf .B := by
  constructor
  · have h1 := channelPhase_conf_other .B (channelPhase .A s.openCycle)
    have h2 := channelPhase_conf .A s.openCycle
    simpa [State.chanConf] using h1.trans h2
  · have h2 := channelPhase_conf .B (channelPhase .A s.openCycle)
    simpa [State.chanConf] using h2

@[simp] theorem runRows_cfg : (runRows s).cfg = s.cfg := by
  unfold runRows; rw [rndPhase_eq, ctrPhase_eq]; simp; split <;> simp
@[simp] theorem runRows_script : (runRows s).script = s.script := by
  unfold runRows; rw [rndPhase_eq, ctrPhase_eq]; simp; split <;> simp
@[simp] theorem runRows_cycle : (runRows s).cycle = s.cycle := by
  unfold runRows; rw [rndPhase_eq, ctrPhase_eq]; simp; split <;> simp

/-- The registers of each channel after a RUN cycle. -/
theorem runRows_chan (x : Channel) : (runRows s).work.nxt.chan x =
    (s.regs.chan x).next s.cfg s.inputs.tick (s.inputs.btn x) := by
  unfold runRows
  rw [rndPhase_eq, ctrPhase_eq]
  cases x <;> simp <;> split <;> simp [channelPhase_nxt]

/-- The Counter after a RUN cycle. -/
theorem runRows_ctr : (runRows s).work.nxt.ctr = counterAfter (s.chanConf .A) (s.chanConf .B) s.regs.ctr := by
  have h := runRows_confs s
  unfold runRows
  rw [rndPhase_eq, ctrPhase_eq, h.1, h.2]
  simp; split <;> simp

/-- The request after a RUN cycle. -/
theorem runRows_rndValid : (runRows s).work.nxt.rndValid =
    (s.chanConf .A || s.chanConf .B || (s.regs.rndValid && !s.inputs.rndReady)) := by
  have h := runRows_confs s
  unfold runRows
  rw [rndPhase_eq, ctrPhase_eq]
  simp [State.upd, h.1, h.2]

/-- The value the renderer took last, after a RUN cycle. -/
theorem runRows_lastTaken : (runRows s).lastTaken =
    if s.regs.rndValid && s.inputs.rndReady then some s.regs.ctr else s.lastTaken := by
  unfold runRows
  rw [rndPhase_eq, ctrPhase_eq]
  simp [State.digit]; split <;> simp

end runRows

end Sys2Proof.Machine
end

