-- ==== Sys2Proof/Laws/PerInstr.lean ====
section
/-! SUPPORT. Facts about every operation as syntax, one lemma per constructor (LAWS.json). -/

namespace Sys2Proof.Laws.OpcodeMap

open Sys2Proof

/-- The row of an operation in the opcode map is written consistently: its match value has no bit its mask leaves out, its mask
has no bit above the length of its format (R18, R50), and its word is selected by its own row. -/
def Statement (i : Instr) : Prop :=
  i.matchBits &&& ~~~i.maskBits = 0 ∧ i.maskBits &&& ~~~i.format.bitsMask = 0 ∧
    rowMatches (encode i) i.matchBits i.maskBits = true

theorem reset : Statement .reset := ⟨by decide, by decide, by decide⟩
theorem run : Statement .run := ⟨by decide, by decide, by decide⟩
theorem edgFall (x : Channel) : Statement (.edgFall x) := by cases x <;> exact ⟨by decide, by decide, by decide⟩
theorem edgLow (x : Channel) : Statement (.edgLow x) := by cases x <;> exact ⟨by decide, by decide, by decide⟩
theorem edgHigh (x : Channel) : Statement (.edgHigh x) := by cases x <;> exact ⟨by decide, by decide, by decide⟩
theorem btnIdle (x : Channel) : Statement (.btnIdle x) := by cases x <;> exact ⟨by decide, by decide, by decide⟩
theorem btnArm (x : Channel) : Statement (.btnArm x) := by cases x <;> exact ⟨by decide, by decide, by decide⟩
theorem btnWait (x : Channel) : Statement (.btnWait x) := by cases x <;> exact ⟨by decide, by decide, by decide⟩
theorem btnCount (x : Channel) : Statement (.btnCount x) := by cases x <;> exact ⟨by decide, by decide, by decide⟩
theorem btnConfirm (x : Channel) : Statement (.btnConfirm x) := by cases x <;> exact ⟨by decide, by decide, by decide⟩
theorem btnDrop (x : Channel) : Statement (.btnDrop x) := by cases x <;> exact ⟨by decide, by decide, by decide⟩
theorem ctrHold : Statement .ctrHold := ⟨by decide, by decide, by decide⟩
theorem ctrInc : Statement .ctrInc := ⟨by decide, by decide, by decide⟩
theorem ctrDec : Statement .ctrDec := ⟨by decide, by decide, by decide⟩
theorem ctrBoth : Statement .ctrBoth := ⟨by decide, by decide, by decide⟩
theorem rndIdle : Statement .rndIdle := ⟨by decide, by decide, by decide⟩
theorem rndWait : Statement .rndWait := ⟨by decide, by decide, by decide⟩
theorem rndTake : Statement .rndTake := ⟨by decide, by decide, by decide⟩
theorem rndPost : Statement .rndPost := ⟨by decide, by decide, by decide⟩

end Sys2Proof.Laws.OpcodeMap
end

