-- ==== Sys2Proof/Laws/Runs.lean ====
section
/-! SUPPORT. Runs: the one next state of a well-formed state as a total function, and the induction over a run, made once. -/

namespace Sys2Proof.Machine

open Sys2Proof

/-! ## One cycle as a total function -/

/-- The state after one cycle of a well-formed state. -/
def State.after (s : State) : State := if s.inputs.rst then (resetRows s).clockEdge else (runRows s).clockEdge

theorem step_eq_after {s : State} (h : s.wf = true) : step s = .next s.after := by
  unfold State.after
  cases hr : s.inputs.rst
  · simpa using step_of_run h hr
  · simpa using step_of_reset h hr

@[simp] theorem State.after_cfg (s : State) : s.after.cfg = s.cfg := by unfold State.after; split <;> simp
@[simp] theorem State.after_script (s : State) : s.after.script = s.script.tail := by unfold State.after; split <;> simp
@[simp] theorem State.after_cycle (s : State) : s.after.cycle = s.cycle + 1 := by unfold State.after; split <;> simp

/-- The inputs to come after one cycle. -/
@[simp] theorem State.after_inputsAt (s : State) (k : Nat) : s.after.inputsAt k = s.inputsAt (k + 1) :=
  State.inputsAt_of_tail (by simp) (by simp) k

/-- A channel after a RUN cycle. -/
theorem State.after_chan {s : State} (hr : s.inputs.rst = false) (x : Channel) :
    s.after.regs.chan x = (s.regs.chan x).next s.cfg s.inputs.tick (s.inputs.btn x) := by
  simp [State.after, hr, runRows_chan]

/-- The registers after a RESET cycle (R140). -/
theorem State.after_of_reset {s : State} (hr : s.inputs.rst = true) : s.after.regs = Regs.reset s.cfg := by
  simp [State.after, hr, resetRows_nxt]

theorem Chan.next_fits {cfg : Config} {c : Chan} (h : c.fits cfg = true) (tick btn : Bool) :
    (c.next cfg tick btn).fits cfg = true := by
  rw [Chan.fits_iff] at *
  refine ⟨?_, shiftIn_length h.2 btn⟩
  show c.nextTmr cfg _ tick < _
  rw [← Chan.zextTmr_nextTmr]
  exact zextTmr_lt cfg _

theorem Chan.reset_fits (cfg : Config) : (Chan.reset cfg).fits cfg = true :=
  (Chan.fits_iff cfg _).2 ⟨Nat.two_pow_pos _, by simp [Chan.reset]⟩

/-- A cycle keeps every register at its width. -/
theorem State.after_wf {s : State} (h : s.wf = true) : s.after.wf = true := by
  have hf := (State.wf_iff s).1 h
  have key : s.after.regs.fits s.cfg = true := by
    rw [Regs.fits_iff]
    intro x
    cases hr : s.inputs.rst
    · rw [State.after_chan hr]
      exact Chan.next_fits ((Regs.fits_iff _ _).1 hf.2.1 x) _ _
    · rw [State.after_of_reset hr, Regs.reset_chan]
      exact Chan.reset_fits _
  have hw : s.after.work.nxt = s.after.regs := by unfold State.after; split <;> rfl
  rw [State.wf_iff, State.after_cfg, hw]
  exact ⟨hf.1, key, key⟩

/-- A well-formed state is where every run starts: the state after reset, in a legal configuration. -/
theorem startState_wf {c : Config} (h : c.legal = true) (l : List Inputs) : (startState c l).wf = true := by
  have hf : (Regs.reset c).fits c = true := (Regs.fits_iff _ _).2 fun x => by rw [Regs.reset_chan]; exact Chan.reset_fits c
  exact (State.wf_iff _).2 ⟨h, hf, hf⟩

/-! ## Runs -/

/-- The state after `n` cycles of a well-formed state. -/
def State.afterN (s : State) : Nat → State
  | 0 => s
  | n + 1 => (s.afterN n).after

@[simp] theorem State.afterN_zero (s : State) : s.afterN 0 = s := rfl
theorem State.afterN_succ (s : State) (n : Nat) : s.afterN (n + 1) = (s.afterN n).after := rfl

theorem State.afterN_after (s : State) (n : Nat) : s.after.afterN n = s.afterN (n + 1) := by
  induction n with
  | zero => rfl
  | succ n ih => exact congrArg State.after ih

theorem State.afterN_wf {s : State} (h : s.wf = true) (n : Nat) : (s.afterN n).wf = true := by
  induction n with
  | zero => exact h
  | succ n ih => exact State.after_wf ih

@[simp] theorem State.afterN_cfg (s : State) (n : Nat) : (s.afterN n).cfg = s.cfg := by
  induction n with
  | zero => rfl
  | succ n ih => rw [State.afterN_succ, State.after_cfg, ih]

@[simp] theorem State.afterN_inputsAt (s : State) (n k : Nat) : (s.afterN n).inputsAt k = s.inputsAt (n + k) := by
  induction n generalizing k with
  | zero => simp
  | succ n ih => rw [State.afterN_succ, State.after_inputsAt, ih, show n + (k + 1) = n + 1 + k by omega]

@[simp] theorem State.afterN_inputs (s : State) (n : Nat) : (s.afterN n).inputs = s.inputsAt n :=
  State.afterN_inputsAt s n 0

/-- A run of a well-formed state never stops, and this is where it is. -/
theorem runCycles_eq_afterN {s : State} (h : s.wf = true) (n : Nat) : runCycles n s = .next (s.afterN n) := by
  induction n generalizing s with
  | zero => rfl
  | succ n ih =>
    rw [← State.afterN_after]
    simp only [runCycles, step_eq_after h]
    exact ih (State.after_wf h)

/-- An invariant of the step is kept by every run. -/
theorem runCycles_keeps {P : State → Prop} (hstep : ∀ s t, P s → step s = .next t → P t) {n : Nat} {s t : State}
    (hs : P s) (h : runCycles n s = .next t) : P t := by
  induction n generalizing s with
  | zero => cases h; exact hs
  | succ n ih =>
    simp only [runCycles] at h
    split at h
    · exact ih (hstep _ _ hs ‹_›) h
    · cases h
    · cases h

/-! ## Infinite runs -/

@[simp] theorem State.withStimuli_cfg (s : State) (l : List Inputs) : (s.withStimuli l).cfg = s.cfg := rfl
@[simp] theorem State.withStimuli_regs (s : State) (l : List Inputs) : (s.withStimuli l).regs = s.regs := rfl
@[simp] theorem State.withStimuli_work (s : State) (l : List Inputs) : (s.withStimuli l).work = s.work := rfl
@[simp] theorem State.withStimuli_lastTaken (s : State) (l : List Inputs) : (s.withStimuli l).lastTaken = s.lastTaken := rfl
@[simp] theorem State.withStimuli_wf (s : State) (l : List Inputs) : (s.withStimuli l).wf = s.wf := rfl
@[simp] theorem State.withStimuli_inputs (s : State) (i : Inputs) (l : List Inputs) : (s.withStimuli (i :: l)).inputs = i := rfl

/-- Cycle `n` of an infinite run of a well-formed state, as a total function. -/
def State.onStream (e : InputStream) (s : State) : Nat → State
  | 0 => s.withStimuli [e 0]
  | n + 1 => (s.onStream e n).after.withStimuli [e (n + 1)]

theorem State.onStream_zero (e : InputStream) (s : State) : s.onStream e 0 = s.withStimuli [e 0] := rfl
theorem State.onStream_succ (e : InputStream) (s : State) (n : Nat) :
    s.onStream e (n + 1) = (s.onStream e n).after.withStimuli [e (n + 1)] := rfl

@[simp] theorem State.onStream_inputs (e : InputStream) (s : State) (n : Nat) : (s.onStream e n).inputs = e n := by
  cases n <;> rfl

@[simp] theorem State.onStream_cfg (e : InputStream) (s : State) (n : Nat) : (s.onStream e n).cfg = s.cfg := by
  induction n with
  | zero => rfl
  | succ n ih => rw [State.onStream_succ, State.withStimuli_cfg, State.after_cfg, ih]

theorem State.onStream_wf {s : State} (h : s.wf = true) (e : InputStream) (n : Nat) : (s.onStream e n).wf = true := by
  induction n with
  | zero => exact h
  | succ n ih => rw [State.onStream_succ, State.withStimuli_wf]; exact State.after_wf ih

/-- An infinite run of a well-formed state never stops, and this is where it is in cycle `n`. -/
theorem cycleOn_eq_onStream {s : State} (h : s.wf = true) (e : InputStream) (n : Nat) :
    cycleOn e s n = .next (s.onStream e n) := by
  induction n with
  | zero => rfl
  | succ n ih => simp only [cycleOn, ih, step_eq_after (State.onStream_wf h e n)]; rfl

end Sys2Proof.Machine
end

