-- ==== Sys2Proof/Tests/Slice0.lean ====
section
/-! SUPPORT. The model's own tests: an ill-formed term for each check, every row's decoding from a word written out from
30_encoding.md, and single steps with the results of 95_test_vectors.md. -/

namespace Sys2Proof.Tests

open Sys2Proof Sys2Proof.Machine

/-! ## WellFormed: an ill-formed term for each check (R14, R50) -/

theorem test_illFormed_delay_zero :
    { Config.default with debounceTicks := 0 }.violations = [.delayTooShort] := by decide
theorem test_illFormed_delay_too_long :
    { Config.default with debounceTicks := 64 }.violations = [.delayTooLong] := by decide
theorem test_illFormed_timer_width_zero :
    { Config.default with tmrW := 0 }.violations = [.delayTooLong, .timerWidthZero] := by decide
theorem test_illFormed_no_sync_stage :
    { Config.default with syncStages := 0 }.violations = [.noSyncStage] := by decide
theorem test_default_legal : Config.default.legal = true := by decide
theorem test_illFormed_rst_word : Format.rst.wellFormed 0b10 = false := by decide
theorem test_illFormed_edg_word : Format.edg.wellFormed 0b100 = false := by decide
theorem test_illFormed_btn_word : Format.btn.wellFormed 0b100000 = false := by decide
theorem test_illFormed_ctr_word : Format.ctr.wellFormed 0b100 = false := by decide
theorem test_illFormed_rnd_word : Format.rnd.wellFormed 0b1000 = false := by decide

/-- The instruction a word decodes to. -/
def decoded (f : Format) (x : Channel) (w : Word) : Option Instr :=
  match decode f x w with
  | .ok i => some i
  | .error _ => none

/-- The reason a word is refused. -/
def refusedWord (f : Format) (x : Channel) (w : Word) : Option DecodeError :=
  match decode f x w with
  | .ok _ => none
  | .error e => some e

theorem test_decode_refuses_by_name : refusedWord .ctr .A 0b100 = some (.tooWide .ctr) := by decide

/-! ## Decoding: the words of 30_encoding.md section 4, masked-out bits set where a row has some -/

theorem test_decode_reset : decoded .rst .A 0b1 = some .reset := by decide
theorem test_decode_run : decoded .rst .A 0b0 = some .run := by decide
theorem test_decode_edgFall : decoded .edg .B 0b10 = some (.edgFall .B) := by decide
theorem test_decode_edgLow : decoded .edg .A 0b00 = some (.edgLow .A) := by decide
theorem test_decode_edgHigh : decoded .edg .A 0b11 = some (.edgHigh .A) := by decide
theorem test_decode_edgHigh_rising : decoded .edg .B 0b01 = some (.edgHigh .B) := by decide
theorem test_decode_btnIdle : decoded .btn .A 0b00111 = some (.btnIdle .A) := by decide
theorem test_decode_btnArm : decoded .btn .B 0b01110 = some (.btnArm .B) := by decide
theorem test_decode_btnWait : decoded .btn .A 0b11011 = some (.btnWait .A) := by decide
theorem test_decode_btnCount : decoded .btn .A 0b11101 = some (.btnCount .A) := by decide
theorem test_decode_btnConfirm : decoded .btn .A 0b11110 = some (.btnConfirm .A) := by decide
theorem test_decode_btnDrop : decoded .btn .B 0b10111 = some (.btnDrop .B) := by decide
theorem test_decode_ctrHold : decoded .ctr .A 0b00 = some .ctrHold := by decide
theorem test_decode_ctrInc : decoded .ctr .A 0b10 = some .ctrInc := by decide
theorem test_decode_ctrDec : decoded .ctr .A 0b01 = some .ctrDec := by decide
theorem test_decode_ctrBoth : decoded .ctr .A 0b11 = some .ctrBoth := by decide
theorem test_decode_rndIdle : decoded .rnd .A 0b001 = some .rndIdle := by decide
theorem test_decode_rndWait : decoded .rnd .A 0b010 = some .rndWait := by decide
theorem test_decode_rndTake : decoded .rnd .A 0b011 = some .rndTake := by decide
theorem test_decode_rndPost : decoded .rnd .A 0b101 = some .rndPost := by decide

/-- Section 2.5 of 95_test_vectors.md: the words of each BTN row, counted over all 32. -/
theorem test_btn_rows_count :
    ([BtnRow.idle, .arm, .wait, .count, .confirm, .drop].map fun r =>
      ((List.range 32).filter fun w => decodeBtn (BitVec.ofNat 5 w) == r).length) = [8, 8, 8, 4, 2, 2] := by decide

/-- R61's own example: `0x0B` is a tick, A pressed, B released, the renderer ready. -/
theorem test_stim_0B :
    decodeStim 0x0B = { rst := false, tick := true, btnAN := false, btnBN := true, rndReady := true } := by decide

theorem test_stim_refuses_by_name :
    (match decodeStimByte 0x20 with | .ok _ => none | .error e => some e) = some DecodeError.stimTooWide := by decide

/-! ## One step -/

/-- The configuration of the vectors of section 3: `DEBOUNCE_TICKS = 2`. -/
def cfg2 : Config := { Config.default with debounceTicks := 2 }

/-- A channel, written as in the tables of section 3: `st/tmr/[sync0,sync1]/prev`. -/
def ch (pending : Bool) (tmr : Nat) (s0 s1 prev : Bool) : Chan :=
  { st := if pending then .pending else .idle, tmr := tmr, sync := [s0, s1], prev := prev }

/-- A state between two cycles, with this cycle's stimulus word. -/
def at_ (a b : Chan) (ctr : Digit) (valid : Bool) (stim : StimWord) : State :=
  let r : Regs := { chA := a, chB := b, ctr := ctr, rndValid := valid }
  { cfg := cfg2, regs := r, work := Work.closed r, script := [decodeStim stim], cycle := 0, lastTaken := none }

/-- A released, Idle channel. -/
def up : Chan := ch false 0 true true true

/-- The registers and the taken value after a step. -/
def after (o : Host.Outcome State Fault Refusal) : Option (Regs × Option Digit) :=
  match o with
  | .next t => some (t.regs, t.lastTaken)
  | .fault _ => none
  | .refused _ => none

/-- Expected registers. -/
def regs (a b : Chan) (ctr : Digit) (valid : Bool) : Regs := { chA := a, chB := b, ctr := ctr, rndValid := valid }

/-- Section 2.9, first row: RESET from the middle of things. -/
theorem test_reset :
    after (step (at_ (ch true 17 false false false) (ch true 3 true false false) 7 false 0x1A)) =
      some (regs up up 0 true, none) := by decide

/-- Section 2.9, third row: a fire due in a cycle with `rst = 1` is cancelled, and there is no handshake. -/
theorem test_reset_cancels_fire :
    after (step (at_ (ch true 0 false false false) up 5 true 0x1F)) = some (regs up up 0 true, none) := by decide

/-- P1, cycle c1: the startup request is taken. -/
theorem test_take_startup : after (step (at_ up up 0 true 0x07)) = some (regs up up 0 false, some 0) := by decide

/-- P1, cycle c2: the press enters the synchroniser. -/
theorem test_sync_shift :
    after (step (at_ up up 0 false 0x03)) = some (regs (ch false 0 false true true) up 0 false, none) := by decide

/-- P1, cycle c4: EDG.FALL and BTN.ARM on A. -/
theorem test_arm_A :
    after (step (at_ (ch false 0 false false true) up 0 false 0x03)) =
      some (regs (ch true 2 false false false) up 0 false, none) := by decide

/-- Section 2.6, first row: the tick of the ARM cycle is not counted (here on B). -/
theorem test_arm_tick_not_counted :
    after (step (at_ up (ch false 0 false false true) 0 false 0x0D)) =
      some (regs up (ch true 2 false false false) 0 false, none) := by decide

/-- P1, cycle c6: BTN.COUNT from 1 to 0 is no fire yet. -/
theorem test_count_to_zero :
    after (step (at_ (ch true 1 false false false) up 0 false 0x0B)) =
      some (regs (ch true 0 false false false) up 0 false, none) := by decide

/-- Section 2.6, fourth row: the fire waits for a tick. -/
theorem test_fire_waits_for_tick :
    after (step (at_ (ch true 0 false false false) up 0 false 0x03)) =
      some (regs (ch true 0 false false false) up 0 false, none) := by decide

/-- P1, cycle c7: A confirms; the Counter goes to 1 and a request is posted. -/
theorem test_confirm_A :
    after (step (at_ (ch true 0 false false false) up 0 false 0x0B)) =
      some (regs (ch false 0 false false false) up 1 true, none) := by decide

/-- P3, cycle c6: B confirms; 0 wraps to 9; the outstanding request is not taken. -/
theorem test_confirm_B_wraps :
    after (step (at_ up (ch true 0 false false false) 0 true 0x0C)) =
      some (regs up (ch false 0 false false false) 9 true, none) := by decide

/-- P4, cycle c6, at Counter 9 (section 2.2): both confirm, the Counter keeps its value, one request. -/
theorem test_confirm_both :
    after (step (at_ (ch true 0 false false false) (ch true 0 false false false) 9 false 0x09)) =
      some (regs (ch false 0 false false false) (ch false 0 false false false) 9 true, none) := by decide

/-- P2, cycle c9: BTN.DROP. -/
theorem test_drop :
    after (step (at_ (ch true 0 true true false) up 0 false 0x0F)) = some (regs up up 0 false, none) := by decide

/-- P6, cycle c8: the edge in the cycle of the fire is lost. -/
theorem test_edge_in_fire_cycle_lost :
    after (step (at_ (ch true 0 false false true) up 0 false 0x0B)) =
      some (regs (ch false 0 false false false) up 1 true, none) := by decide

/-- Section 2.6, last row: BTN.IDLE restores invariant 2 of R38. -/
theorem test_idle_restores :
    after (step (at_ (ch false 5 true true true) up 0 false 0x07)) = some (regs up up 0 false, none) := by decide

/-- R114: an update and a handshake in one cycle: the renderer takes the old value and the new one is requested. -/
theorem test_post_takes_old :
    after (step (at_ (ch true 0 false false false) up 4 true 0x0B)) =
      some (regs (ch false 0 false false false) up 5 true, some 4) := by decide

/-- Section 2.2: the unreachable start value 12, incremented. -/
theorem test_inc_unreachable :
    after (step (at_ (ch true 0 false false false) up 12 false 0x0B)) =
      some (regs (ch false 0 false false false) up 0 true, none) := by decide

/-- Section 2.3, the last row: `SYNC_STAGES = 1`. -/
theorem test_one_sync_stage : shiftIn { cfg2 with syncStages := 1 } false [false] = [false] := by decide

/-- P6, cycle c8: the rows performed. -/
theorem test_rows_performed :
    rowsPerformed (at_ (ch true 0 false false true) up 0 false 0x0B) =
      [.run, .edgFall .A, .btnConfirm .A, .edgHigh .B, .btnIdle .B, .ctrInc, .rndPost] := by decide

/-- R14: an illegal configuration has no step. -/
theorem test_illegal_config_refused :
    (match step { at_ up up 0 false 0x07 with cfg := { cfg2 with debounceTicks := 0 } } with
      | .refused r => some r | _ => none) = some Refusal.illegalConfig := by decide

/-- A synchroniser of the wrong length is no state of the block. -/
theorem test_misfit_refused :
    (match step { at_ up up 0 false 0x07 with cfg := { cfg2 with syncStages := 3 } } with
      | .refused r => some r | _ => none) = some Refusal.misfit := by decide

/-! ## Counter functions (section 2.1, the whole table) -/

theorem test_inc10_table :
    (List.range 16).map (fun n => (inc10 (BitVec.ofNat 4 n)).toNat) =
      [1, 2, 3, 4, 5, 6, 7, 8, 9, 0, 0, 0, 0, 0, 0, 0] := by decide

theorem test_dec10_table :
    (List.range 16).map (fun n => (dec10 (BitVec.ofNat 4 n)).toNat) =
      [9, 0, 1, 2, 3, 4, 5, 6, 7, 8, 9, 9, 9, 9, 9, 9] := by decide

/-! ## Scripts -/

/-- The words of P4 (section 3), from its script. -/
theorem test_script_P4 :
    (assemble [.core .rst, .core (.set (some false) (some false) none), .wait 3, .ticks 3,
        .core (.set (some true) (some true) none), .core .cyc, .core .cyc]).map encodeStim =
      [0x17, 0x01, 0x01, 0x01, 0x09, 0x09, 0x09, 0x07, 0x07] := by decide

/-- `rst` / `press a ; set a=0` / `cyc tick` / `set rdy=0 b=0`, as text. -/
theorem test_parse_script :
    (match parseScript (['r', 's', 't', '\n'] ++ ['p', 'r', 'e', 's', 's', ' ', 'a', ' ', ';', ' ', 's', '\n'] ++
        ['c', 'y', 'c', ' ', 't', 'i', 'c', 'k', '\n', '\n'] ++
        ['s', 'e', 't', ' ', 'r', 'd', 'y', '=', '0', ' ', 'b', '=', '0']) with
      | .ok l => some l | .error _ => none) =
      some [.core .rst, .press .A, .core .cycTick, .core (.set none (some false) (some false))] := by decide

/-- A line that is no statement is refused with its number. -/
theorem test_parse_refuses :
    (match parseScript ['c', 'y', 'c', '\n', 'c', 'y', 'c', ' ', 'x'] with
      | .ok _ => none | .error e => some e) = some (ScriptError.badLine 2) := by decide

/-! ## The host's words -/

theorem test_table_word_confirm : decodeTableWord 8 0b10110 = some (.btnConfirm .A) := by decide

theorem test_fetch_word_confirm :
    after (step (State.reset.withFetchWord 8 0b10110)) =
      some (regs (ch false 0 true true false) up 1 true, some 0) := by decide

theorem test_fetch_word_reset : after (step (State.reset.withFetchWord 8 1)) = some (regs up up 0 true, none) := by decide

theorem test_fetch_word_both :
    rowsPerformed (State.reset.withFetchWord 8 0b11) =
      [.run, .edgFall .A, .btnConfirm .A, .edgFall .B, .btnConfirm .B, .ctrBoth, .rndPost] := by decide

/-! ## Witnesses: for each obligation with hypotheses, a state and operands that meet them together -/

/-- A state between two cycles, with the stimulus words of the coming cycles. -/
def run_ (a b : Chan) (ctr : Digit) (valid : Bool) (l : List StimWord) : State :=
  { at_ a b ctr valid 0 with script := l.map decodeStim }

/-- A channel whose level has just fallen, Idle; one due to fire with a low, and with a high level. -/
def falling : Chan := ch false 0 false false true
def dueLow : Chan := ch true 0 false false false
def dueHigh : Chan := ch true 0 true true true

/-- Inside a cycle: the signals of the cycle in progress. -/
def driving (s : State) (fallA fallB confA confB : Bool) : State :=
  { s with work := { s.work with fallA := fallA, fallB := fallB, confA := confA, confB := confB } }

theorem witness_EveryWordSelectsExactlyOneRow :
    Format.rst.wellFormed 1 = true ∧ Format.edg.wellFormed 3 = true ∧ Format.btn.wellFormed 31 = true ∧
    Format.ctr.wellFormed 3 = true ∧ Format.rnd.wellFormed 7 = true ∧ (at_ up up 0 true 0x07).wf = true := by decide

theorem witness_DecodeInvertsEncode :
    Instr.run.channel = none ∧ (Instr.btnWait .B).channel = some .B ∧
    decoded .btn .B 0b11111 = some (.btnDrop .B) ∧ Format.btn.wellFormed 0b100000 = false := by decide

theorem witness_StimulusWordIsTheInputsOfOneCycle :
    [decodeStim 0x07, decodeStim 0x0B][1]? = some (decodeStim 0x0B) ∧
    ['0', '1'][(0x0B : StimWord).toNat / 16]? = some '0' := by decide

theorem witness_IllegalConfigurationHasNoStep :
    { Config.default with debounceTicks := 64 }.legal = false ∧ { Config.default with debounceTicks := 63 }.legal = true := by
  decide

theorem witness_EveryRowCompletesAndNothingElseIsRefused :
    (at_ up up 0 true 0x07).wf = true ∧
    step { at_ up up 0 false 0x07 with cfg := { cfg2 with syncStages := 3 } } = .refused .misfit ∧
    step { at_ up up 0 false 0x07 with cfg := { cfg2 with syncStages := 0 } } = .refused .illegalConfig :=
  ⟨by decide, rfl, rfl⟩

/-- A button held through the reset, with the RUN cycles after it. -/
def heldThroughReset : State := run_ dueLow up 5 true [0x1B, 0x03, 0x03, 0x03, 0x03]

theorem witness_ResetCycleLoadsEveryRegister :
    heldThroughReset.wf = true ∧ heldThroughReset.inputs.rst = true ∧
    ∀ k, k ≤ 2 → (heldThroughReset.inputsAt (k + 1)).rst = false ∧ (heldThroughReset.inputsAt (k + 1)).btn .A = false := by
  decide

theorem witness_EdgFallYieldsOneCycleOfFall :
    (at_ falling up 0 false 0x03).wf = true ∧ decodeEdg ((at_ falling up 0 false 0x03).edgWord .A) = .fall ∧
    (at_ falling up 0 false 0x03).inputs.rst = false := by decide

theorem witness_EdgLowAndHighYieldNoFall :
    (at_ dueLow up 0 false 0x03).wf = true ∧ decodeEdg ((at_ dueLow up 0 false 0x03).edgWord .A) = .low ∧
    decodeEdg ((at_ dueLow up 0 false 0x03).edgWord .B) = .high := by decide

theorem witness_BtnIdleClearsTheTimer :
    (at_ up up 0 false 0x0F).wf = true ∧ decodeBtn ((at_ up up 0 false 0x0F).btnWord .A) = .idle := by decide

theorem witness_BtnArmSchedulesTheDelay :
    (driving (at_ falling up 0 false 0x0B) true false false false).wf = true ∧
    decodeBtn ((driving (at_ falling up 0 false 0x0B) true false false false).btnWord .A) = .arm ∧
    (at_ falling up 0 false 0x0B).inputs.rst = false ∧ falling.st = .idle ∧ falling.prev = true ∧
    (at_ falling up 0 false 0x0B).lvl .A = false := by decide

theorem witness_BtnWaitHoldsTheTimer :
    (at_ up dueHigh 0 false 0x07).wf = true ∧ decodeBtn ((at_ up dueHigh 0 false 0x07).btnWord .B) = .wait := by decide

theorem witness_BtnCountTakesOneTick :
    (at_ (ch true 1 false false false) dueLow 0 false 0x0B).wf = true ∧
    decodeBtn ((at_ (ch true 1 false false false) dueLow 0 false 0x0B).btnWord .A) = .count := by decide

theorem witness_BtnConfirmYieldsConf :
    (driving (at_ dueLow dueLow 0 false 0x0B) true false false true).wf = true ∧
    decodeBtn ((driving (at_ dueLow dueLow 0 false 0x0B) true false false true).btnWord .A) = .confirm ∧
    decodeBtn ((at_ up dueLow 0 false 0x0B).btnWord .B) = .confirm := by decide

theorem witness_BtnDropIsSilent :
    (at_ dueHigh up 0 false 0x0F).wf = true ∧ decodeBtn ((at_ dueHigh up 0 false 0x0F).btnWord .A) = .drop ∧
    (at_ dueHigh up 0 false 0x0F).work.conf (Channel.A.other) = false := by decide

theorem witness_CounterFunctionsWrap :
    (8 : Digit).toNat ≤ 8 ∧ 9 ≤ (9 : Digit).toNat ∧ (1 ≤ (1 : Digit).toNat ∧ (9 : Digit).toNat ≤ 9) ∧
    (0 : Digit).toNat = 0 ∧ 10 ≤ (10 : Digit).toNat := by decide

/-- A run of two cycles from reset: the startup request is taken. -/
def fromReset : State := startState cfg2 [decodeStim 0x07, decodeStim 0x07, decodeStim 0x07]

theorem witness_CounterFunctionLaws :
    (9 : Digit).toNat ≤ 9 ∧ ∃ t, runCycles 2 (startState cfg2 [decodeStim 0x07, decodeStim 0x07]) = .next t :=
  ⟨by decide, _, rfl⟩

theorem witness_CtrRowsOfOneConfirm :
    (driving (at_ up up 9 false 0x0B) false false true false).wf = true ∧
    decodeCtr (driving (at_ up up 9 false 0x0B) false false true false).ctrWord = .inc ∧
    decodeCtr (driving (at_ up up 0 false 0x0B) false false false true).ctrWord = .dec ∧
    decodeCtr (at_ up up 10 false 0x0B).ctrWord = .hold := by decide

theorem witness_BothConfirmsCancel :
    (at_ dueLow dueLow 9 false 0x09).wf = true ∧ (at_ dueLow dueLow 9 false 0x09).confirms .A = true ∧
    (at_ dueLow dueLow 9 false 0x09).confirms .B = true ∧ (at_ dueLow dueLow 10 false 0x09).wf = true ∧
    decodeCtr (driving (at_ dueLow dueLow 9 false 0x09) false false true true).ctrWord = .both := by decide

theorem witness_CounterHasOneWriter :
    (∃ t, exec (.btnConfirm .A) (at_ dueLow up 9 false 0x0B) = .next t) ∧ (Instr.btnConfirm .A).format ≠ .ctr ∧
    (Instr.btnConfirm .A).format ≠ .rst ∧ (at_ dueLow up 9 false 0x0B).wf = true :=
  ⟨⟨_, rfl⟩, by decide, by decide, by decide⟩

theorem witness_RndIdleAndWaitTakeNothing :
    (at_ up up 9 false 0x07).wf = true ∧ decodeRnd (at_ up up 9 false 0x07).rndWord = .idle ∧
    (at_ up up 9 true 0x06).wf = true ∧ decodeRnd (at_ up up 9 true 0x06).rndWord = .wait := by decide

theorem witness_RndTakeAndPostHandOver :
    (at_ up up 9 true 0x07).wf = true ∧ decodeRnd (at_ up up 9 true 0x07).rndWord = .take ∧
    decodeRnd (driving (at_ up up 9 true 0x07) false false true false).rndWord = .post := by decide

theorem witness_HandshakeTakesTheDigitOfTheCycle :
    (at_ up up 9 true 0x07).wf = true ∧ (at_ up up 9 true 0x07).handshake = true ∧
    (at_ up up 9 true 0x17).handshake = false := by decide

theorem witness_StepRunsTheDecodedOperation :
    decoded .rst .A ((at_ up up 9 true 0x17).rstWord.setWidth 8) = some .reset ∧
    decoded .rst .A ((at_ up up 9 true 0x07).rstWord.setWidth 8) = some .run ∧
    ∃ t, step (at_ up up 9 true 0x07) = .next t := ⟨by decide, by decide, _, rfl⟩

theorem witness_RunPerformsTheSelectedRows :
    (at_ dueLow falling 9 true 0x0B).wf = true ∧ (at_ dueLow falling 9 true 0x0B).inputs.rst = false ∧
    (at_ dueLow falling 9 true 0x1B).wf = true ∧ (at_ dueLow falling 9 true 0x1B).inputs.rst = true := by decide

theorem witness_RunIsOneRegisterTransfer :
    (at_ dueLow falling 9 true 0x0B).wf = true ∧ (at_ dueLow falling 9 true 0x0B).inputs.rst = false := by decide

theorem witness_RowsWriteTheNextStateOnly :
    (∃ t, exec (.edgFall .B) (at_ up falling 9 true 0x0B) = .next t) ∧ (Instr.edgFall .B).format ≠ .rst :=
  ⟨⟨_, rfl⟩, by decide⟩

theorem witness_OrderOfTheChannelsIsOfNoConsequence :
    (at_ dueLow dueLow 9 true 0x09).wf = true ∧ (at_ dueLow dueLow 9 true 0x09).inputs.rst = false := by decide

theorem witness_NothingIsLatchedBetweenCycles :
    (at_ up up 9 true 0x07).wf = true ∧
    (driving (at_ dueLow falling 9 true 0x07) true true true true).work.nxt.fits (at_ up up 9 true 0x07).cfg = true ∧
    ∃ t, step (at_ up up 9 true 0x07) = .next t := ⟨by decide, by decide, _, rfl⟩

theorem witness_ArrangedRowIsPerformed : (at_ dueLow falling 9 true 0x1B).wf = true ∧ State.reset.wf = true := by decide

theorem witness_SynchroniserShiftsAndPrevFollows :
    (at_ dueLow falling 9 true 0x05).wf = true ∧ (at_ dueLow falling 9 true 0x05).inputs.rst = false := by decide

/-- A reset cycle, then one RUN cycle: the level of a pin sampled before the reset is gone. -/
def resetThenRun : State := run_ dueLow up 9 true [0x13, 0x03, 0x03]

theorem witness_LevelIsThePinSampledEarlier :
    ((run_ up up 9 true [0x03, 0x07]).wf = true ∧ noReset (run_ up up 9 true [0x03, 0x07]) 2) ∧
    (resetThenRun.wf = true ∧ resetThenRun.inputs.rst = true ∧ 1 < resetThenRun.cfg.syncStages ∧
      (resetThenRun.inputsAt 1).rst = false) := by decide

/-- P2: a pin low for one sample. -/
def shortPulse : State := run_ up up 0 false [0x03, 0x07, 0x07]

theorem witness_PressArmsAfterTheSynchroniser :
    shortPulse.wf = true ∧ (shortPulse.regs.chan .A).st = .idle ∧
    (shortPulse.regs.chan .A).sync = List.replicate shortPulse.cfg.syncStages true ∧
    noReset shortPulse (shortPulse.cfg.syncStages + 1) ∧ (shortPulse.inputsAt 0).btn .A = false := by decide

theorem witness_ButtonHeldThroughResetArms :
    heldThroughReset.wf = true ∧ heldThroughReset.inputs.rst = true ∧ heldThroughReset.cfg.syncStages + 1 = 3 ∧
    ∀ k, k ≤ 2 → (heldThroughReset.inputsAt (k + 1)).rst = false ∧ (heldThroughReset.inputsAt (k + 1)).btn .A = false := by
  decide

theorem witness_EdgesWhilePendingAreDiscarded :
    (at_ (ch true 0 false false true) up 0 false 0x0B).wf = true ∧
    (at_ (ch true 0 false false true) up 0 false 0x0B).inputs.rst = false := by decide

theorem witness_PendingEndsOnlyByAFire :
    (at_ dueLow up 0 false 0x0B).wf = true ∧ dueLow.st = .pending ∧
    noReset (run_ dueLow up 0 false [0x03, 0x07]) 2 ∧
    ∀ k, k < 2 → ((run_ dueLow up 0 false [0x03, 0x07]).inputsAt k).tick = false := by decide

/-- ARM in this cycle, then ticks in every second cycle (period 2, phase 2). -/
def armed : State := run_ falling up 0 false [0x0B, 0x03, 0x0B, 0x03, 0x0B, 0x03, 0x0B]

theorem witness_FireComesAtTheLastTick :
    armed.wf = true ∧ armed.inputs.rst = false ∧ (armed.regs.chan .A).st = .idle ∧ (armed.regs.chan .A).prev = true ∧
    armed.lvl .A = false ∧
    ∃ t, step armed = .next t ∧ noReset t (5 + 1) ∧ tickCount t 5 = armed.cfg.debounceTicks ∧ (t.inputsAt 5).tick = true :=
  ⟨by decide, by decide, by decide, by decide, by decide, _, rfl, by decide, by decide, by decide⟩

theorem witness_FireTimingUnderAPeriodicTick :
    armed.wf = true ∧ armed.inputs.rst = false ∧ (armed.regs.chan .A).st = .idle ∧ (armed.regs.chan .A).prev = true ∧
    armed.lvl .A = false ∧ (1 ≤ 2 ∧ 2 ≤ 2) ∧
    ∃ t, step armed = .next t ∧ noReset t ((armed.cfg.debounceTicks + 1) * 2) ∧
      ∀ k, k < (armed.cfg.debounceTicks + 1) * 2 → ((t.inputsAt k).tick = true ↔ (k + 1) % 2 = 2 % 2) :=
  ⟨by decide, by decide, by decide, by decide, by decide, by decide, _, rfl, by decide, by decide⟩

/-- Pending with a timer that has run out, and no tick for two cycles. -/
def waiting : State := run_ dueHigh up 0 false [0x03, 0x07, 0x0F]

theorem witness_ResampleReadsOnePinLevel :
    waiting.wf = true ∧ noReset waiting (waiting.cfg.syncStages + 1) ∧
    ∃ t, runCycles waiting.cfg.syncStages waiting = .next t ∧ (t.regs.chan .A).st = .pending ∧
      (t.regs.chan .A).tmr = 0 ∧ t.inputs.tick = true :=
  ⟨by decide, by decide, _, rfl, by decide, by decide, by decide⟩

theorem witness_ChannelsAreIndependent :
    (at_ dueLow up 3 true 0x0B).wf = true ∧ (at_ dueLow falling 8 false 0x08).wf = true ∧
    (at_ dueLow up 3 true 0x0B).inputs.btn .A = (at_ dueLow falling 8 false 0x08).inputs.btn .A := by decide

theorem witness_RendererExertsNoBackPressure :
    (at_ dueLow up 3 true 0x0B).wf = true ∧ (at_ dueLow up 3 false 0x0A).wf = true ∧
    (∀ x : Channel, (at_ dueLow up 3 true 0x0B).regs.chan x = (at_ dueLow up 3 false 0x0A).regs.chan x) ∧
    ∀ x : Channel, (at_ dueLow up 3 true 0x0B).inputs.btn x = (at_ dueLow up 3 false 0x0A).inputs.btn x :=
  ⟨by decide, by decide, fun _ => rfl, fun x => by cases x <;> decide⟩

/-- A confirm in the first cycle, the renderer always ready. -/
def readyRun : State := run_ dueLow up 3 true [0x0B, 0x03]

theorem witness_ReadyRendererTakesEveryValue :
    readyRun.wf = true ∧ noReset readyRun 2 ∧ (∀ k, k < 2 → (readyRun.inputsAt k).rndReady = true) ∧
    takenIn 2 readyRun = [3, 4] ∧ writtenIn 2 readyRun = [4] := by decide

theorem witness_LastValueTakenIsTheCounter :
    ∃ t, ({ at_ up up 3 false 0x07 with lastTaken := some 3 } : State).RendererUpToDate ∧
      step { at_ up up 3 false 0x07 with lastTaken := some 3 } = .next t ∧ t.regs.rndValid = false :=
  ⟨_, fun _ => rfl, rfl, by decide⟩

theorem witness_RenderedDigitIsTheCounterInEveryRun :
    ∃ t, runCycles 2 fromReset = .next t ∧ t.regs.rndValid = false := ⟨_, rfl, by decide⟩

theorem witness_RendererEndsWithTheFinalCounter :
    (run_ up up 3 true [0x06, 0x07, 0x06]).wf = true ∧ (run_ up up 3 true [0x06, 0x07, 0x06]).RendererUpToDate ∧
    noReset (run_ up up 3 true [0x06, 0x07, 0x06]) 3 ∧
    ((run_ up up 3 true [0x06, 0x07, 0x06]).inputsAt 1).rndReady = true ∧
    writtenIn 3 (run_ up up 3 true [0x06, 0x07, 0x06]) = [] := by decide

theorem witness_StartupRenderIsZero :
    cfg2.legal = true ∧ fromReset.inputs.rst = false ∧ fromReset.inputs.rndReady = true ∧ noReset fromReset 3 ∧
    tickCount fromReset 3 ≤ cfg2.debounceTicks := by decide

theorem witness_StepKeepsTheInvariants :
    (at_ dueLow (ch true 2 false false false) 9 true 0x0B).Inv ∧
    ∃ t, step (at_ dueLow (ch true 2 false false false) 9 true 0x0B) = .next t := ⟨by decide, _, rfl⟩

/-- The smallest legal configuration (R14). -/
def smallest : Config := { debounceTicks := 1, tmrW := 1, syncStages := 1, tickPeriodMicros := 1000, clkHz := none }

theorem witness_InvariantsHoldAfterReset : smallest.legal = true := by decide

theorem witness_EveryReachedStateKeepsTheInvariants : ∃ t, Reachable t ∧ t.regs.rndValid = false :=
  ⟨_, ⟨cfg2, [decodeStim 0x07], 1, by decide, rfl⟩, by decide⟩

theorem witness_EveryOperationKeepsTheWidths :
    ∃ t, exec (.btnArm .A) (at_ falling up 9 true 0x0B) = .next t := ⟨_, rfl⟩

/-- Quiescent, both pins high, low levels still in A's synchroniser but no falling edge. -/
def settling : State := run_ (ch false 0 false false false) up 3 false [0x07, 0x07, 0x07, 0x07]

theorem witness_QuiescentStateStaysQuiescent :
    settling.Inv ∧ settling.Quiescent ∧ settling.regs.chA.NoPulse ∧ settling.regs.chB.NoPulse ∧ noReset settling 3 ∧
    releasedFor settling .A 3 ∧ releasedFor settling .B 3 ∧ settling.cfg.syncStages + 1 ≤ 3 := by decide

/-- A tick in every second cycle, A and B held down, the renderer ready in every second cycle. -/
def everySecond : InputStream := fun k =>
  { rst := false, tick := k % 2 == 1, btnAN := false, btnBN := false, rndReady := k % 2 == 1 }

/-- No tick, and a renderer that is never ready. -/
def silent : InputStream := fun _ => decodeStim 0x06

/-- A reset, then `everySecond`. -/
def resetFirst : InputStream := fun k => { everySecond k with rst := k == 0 }

theorem witness_PendingChannelFiresWhileTicksGoOn :
    (at_ dueHigh (ch true 2 false false false) 3 true 0x07).wf = true ∧ dueHigh.st = .pending ∧
    (ch true 2 false false false).st = .pending ∧ TickDuty everySecond ∧ NeverReset silent ∧
    ∀ k, (silent k).tick = false :=
  ⟨by decide, rfl, rfl, fun n => ⟨2 * n + 1, by omega, by simp [everySecond]⟩, fun _ => rfl, fun _ => rfl⟩

theorem witness_RendererAndResetDutiesSuffice :
    (at_ dueLow up 3 true 0x07).wf = true ∧ (at_ dueLow up 3 true 0x07).regs.rndValid = true ∧ NeverReset everySecond ∧
    ReadyDuty everySecond ∧ NeverReset silent ∧ (∀ k, (silent k).rndReady = false) ∧
    (at_ up falling 12 false 0x07).wf = true ∧ (at_ up falling 12 false 0x07).cfg = (at_ dueLow up 3 true 0x07).cfg ∧
    ResetDuty resetFirst :=
  ⟨by decide, rfl, fun _ => rfl, fun n => ⟨2 * n + 1, by omega, by simp [everySecond]⟩, fun _ => rfl, fun _ => rfl,
    by decide, rfl, rfl⟩

end Sys2Proof.Tests
end

section
/-! SUPPORT. The family of 00_scope.md: the decoder against the opcode map (O2), the RUN cycle as one register transfer (O31),
illegal configurations (O9), and what the rows inside a cycle leave unchanged (O32). -/

namespace Sys2Proof

/-! ## Words of a format -/

theorem Format.bits_le (f : Format) : f.bits ≤ 8 := by cases f <;> decide

/-- A word of the format is one without a bit outside the format's mask. -/
theorem Format.wellFormed_iff (f : Format) (w : Word) : f.wellFormed w = true ↔ w &&& f.bitsMask = w := by
  have hmask : f.bitsMask.toNat = 2 ^ f.bits - 1 := by cases f <;> rfl
  rw [Format.wellFormed, decide_eq_true_iff, ← BitVec.toNat_inj, BitVec.toNat_and, hmask, Nat.and_two_pow_sub_one_eq_mod,
    Nat.mod_eq_iff_lt (Nat.two_pow_pos _).ne']

/-- A word of the format is a word of the format's length, carried in a byte. -/
theorem Format.wellFormed_iff_exists (f : Format) (w : Word) :
    f.wellFormed w = true ↔ ∃ v : BitVec f.bits, w = v.setWidth 8 := by
  have hpow : 2 ^ f.bits ≤ 2 ^ 8 := Nat.pow_le_pow_right (by decide) f.bits_le
  rw [Format.wellFormed, decide_eq_true_iff]
  constructor
  · intro hw
    refine ⟨w.setWidth f.bits, BitVec.eq_of_toNat_eq ?_⟩
    rw [BitVec.toNat_setWidth, BitVec.toNat_setWidth, Nat.mod_eq_of_lt hw, Nat.mod_eq_of_lt w.isLt]
  · rintro ⟨v, rfl⟩
    rw [BitVec.toNat_setWidth, Nat.mod_eq_of_lt (v.isLt.trans_le hpow)]
    exact v.isLt

/-! ## The opcode map -/

/-- A bit of `a` is a bit of `b` where no bit of `a` is outside `b`. -/
theorem getElem_of_and_not_eq_zero {n : Nat} {a b : BitVec n} (h : a &&& ~~~b = 0) {j : Nat} (hj : j < n)
    (ha : a[j] = true) : b[j] = true := by
  have hbit : (a &&& ~~~b)[j] = (0#n)[j] := by rw [h]; rfl
  simpa [ha] using hbit

theorem Instr.format_eq_rst_iff (i : Instr) : i.format = .rst ↔ i = .reset ∨ i = .run := by
  cases i <;> simp [Instr.format]

/-- Every row of the opcode map is written consistently (R18, R50). -/
theorem Laws.OpcodeMap.statement : ∀ i : Instr, Laws.OpcodeMap.Statement i
  | .reset => reset
  | .run => run
  | .edgFall x => edgFall x
  | .edgLow x => edgLow x
  | .edgHigh x => edgHigh x
  | .btnIdle x => btnIdle x
  | .btnArm x => btnArm x
  | .btnWait x => btnWait x
  | .btnCount x => btnCount x
  | .btnConfirm x => btnConfirm x
  | .btnDrop x => btnDrop x
  | .ctrHold => ctrHold
  | .ctrInc => ctrInc
  | .ctrDec => ctrDec
  | .ctrBoth => ctrBoth
  | .rndIdle => rndIdle
  | .rndWait => rndWait
  | .rndTake => rndTake
  | .rndPost => rndPost

/-- The rows of a format on a channel: those of the format that stand for that channel or for none. -/
theorem Format.mem_rows_iff (f : Format) (x : Channel) (i : Instr) :
    i ∈ f.rows x ↔ i.format = f ∧ (i.channel = none ∨ i.channel = some x) := by
  cases f <;> cases i <;> simp [Format.rows, Instr.format, Instr.channel]

/-- Every word of a row is selected by the row. -/
theorem rowMatches_encodeWith (free : Word) (i : Instr) :
    rowMatches (encodeWith free i) i.matchBits i.maskBits = true := by
  obtain ⟨hmatch, -, -⟩ := Laws.OpcodeMap.statement i
  rw [rowMatches, encodeWith, beq_iff_eq]
  ext j hj
  have hmk : i.matchBits[j] = true → i.maskBits[j] = true := getElem_of_and_not_eq_zero hmatch hj
  grind

/-- Every word of a row is a word of its format. -/
theorem encodeWith_wellFormed (free : Word) (i : Instr) : i.format.wellFormed (encodeWith free i) = true := by
  obtain ⟨hmatch, hmask, -⟩ := Laws.OpcodeMap.statement i
  rw [Format.wellFormed_iff, encodeWith]
  ext j hj
  have hmk : i.matchBits[j] = true → i.maskBits[j] = true := getElem_of_and_not_eq_zero hmatch hj
  have hkf : i.maskBits[j] = true → i.format.bitsMask[j] = true := getElem_of_and_not_eq_zero hmask hj
  grind

/-- A word of the format that the row selects is the row's word with the masked-out bits taken from itself. -/
theorem encodeWith_self {w : Word} {i : Instr} (hw : i.format.wellFormed w = true)
    (hm : rowMatches w i.matchBits i.maskBits = true) : encodeWith w i = w := by
  rw [Format.wellFormed_iff] at hw
  rw [rowMatches, beq_iff_eq] at hm
  calc encodeWith w i
      = w &&& i.maskBits ||| w &&& i.format.bitsMask &&& ~~~i.maskBits := by rw [encodeWith, hm]; ac_rfl
    _ = w := by rw [hw]; ext j hj; grind

/-! ## The decoder against the opcode map -/

/-- The row the decoder gives for a word of exactly the format's length. -/
def Format.rowOf (f : Format) (x : Channel) (v : BitVec f.bits) : Instr :=
  match f, v with
  | .rst, v => (decodeRst v).instr
  | .edg, v => (decodeEdg v).instr x
  | .btn, v => (decodeBtn v).instr x
  | .ctr, v => (decodeCtr v).instr
  | .rnd, v => (decodeRnd v).instr

theorem decode_setWidth (f : Format) (x : Channel) (v : BitVec f.bits) :
    decode f x (v.setWidth 8) = .ok (f.rowOf x v) := by
  rw [decode.eq_def, if_pos ((f.wellFormed_iff_exists _).2 ⟨v, rfl⟩)]
  have hv : (v.setWidth 8).setWidth f.bits = v := by
    rw [BitVec.setWidth_setWidth_of_le _ f.bits_le, BitVec.setWidth_eq]
  cases f <;> exact congrArg (fun u => Except.ok (Format.rowOf _ x u)) hv

/-- The row the decoder gives is a row of the format on the channel. -/
theorem Format.rowOf_mem_rows (f : Format) (x : Channel) (v : BitVec f.bits) : f.rowOf x v ∈ f.rows x := by
  cases f <;> cases x <;> revert v <;> decide

/-- Of the rows of a format, a word selects the one the decoder gives and no other (R58): each format has at most 32 words. -/
theorem Format.rowMatches_iff_eq_rowOf (f : Format) (x : Channel) (v : BitVec f.bits) :
    ∀ i ∈ f.rows x, rowMatches (v.setWidth 8) i.matchBits i.maskBits = true ↔ i = f.rowOf x v := by
  cases f <;> cases x <;> revert v <;> decide

/-- What the decoder answers: the row of the format, on the channel, that selects the word. -/
theorem decode_eq_ok_iff {f : Format} {x : Channel} {w : Word} {i : Instr} : decode f x w = .ok i ↔
    f.wellFormed w = true ∧ i ∈ f.rows x ∧ rowMatches w i.matchBits i.maskBits = true := by
  by_cases hw : f.wellFormed w = true
  · obtain ⟨v, rfl⟩ := (f.wellFormed_iff_exists w).1 hw
    rw [decode_setWidth, Except.ok.injEq]
    constructor
    · rintro rfl
      have hmem := f.rowOf_mem_rows x v
      exact ⟨hw, hmem, (f.rowMatches_iff_eq_rowOf x v _ hmem).2 rfl⟩
    · rintro ⟨-, hmem, hm⟩
      exact ((f.rowMatches_iff_eq_rowOf x v i hmem).1 hm).symm
  · simp [decode, hw]

/-- What the decoder refuses: the bytes that are no word of the format (R50). -/
theorem decode_of_not_wellFormed {f : Format} {w : Word} (x : Channel) (hw : f.wellFormed w = false) :
    decode f x w = .error (.tooWide f) := by
  simp [decode, hw]

/-- Settles O2: the decoder answers the row that selects the word (`decode_eq_ok_iff`), and the words a row selects are the
row's words. -/
theorem decodeInvertsEncode : Obligations.DecodeInvertsEncode := by
  refine ⟨fun i x free hx => ⟨encodeWith_wellFormed free i, ?_⟩, fun f x w i h => ?_,
    fun f x w hw => decode_of_not_wellFormed x hw⟩
  · exact decode_eq_ok_iff.2
      ⟨encodeWith_wellFormed free i, (Format.mem_rows_iff _ x i).2 ⟨rfl, hx⟩, rowMatches_encodeWith free i⟩
  · obtain ⟨hw, hmem, hm⟩ := decode_eq_ok_iff.1 h
    obtain ⟨rfl, hx⟩ := (Format.mem_rows_iff f x i).1 hmem
    exact ⟨rfl, hx, encodeWith_self hw hm⟩

end Sys2Proof

namespace Sys2Proof.Machine

open Sys2Proof

/-! ## The RUN cycle as one register transfer -/

/-- In a legal configuration a timer of its width is loaded whole and counts down to 0 without a wrap (R81 to R86). -/
theorem Chan.nextTmr_of_fits {cfg : Config} {c : Chan} (hl : cfg.legal = true) (ht : c.tmr < 2 ^ cfg.tmrW)
    (fall tick : Bool) : c.nextTmr cfg fall tick =
      match c.st with
      | .idle => if fall then cfg.debounceTicks else 0
      | .pending => if tick then c.tmr - 1 else c.tmr := by
  unfold Chan.nextTmr
  cases c.st with
  | idle => simp [zextTmr_debounceTicks hl]
  | pending =>
    rw [zextTmr_of_lt ht]
    by_cases h0 : c.tmr = 0
    · simp [h0]
    · simp [h0, tmrPred_of_pos (Nat.pos_of_ne_zero h0) ht]

/-- In a cycle without reset, a channel confirms where its BTN row of the RUN cycle drives `conf_X` (R85). -/
theorem State.confirms_of_run {s : State} (hr : s.inputs.rst = false) (x : Channel) : s.confirms x = s.chanConf x := by
  simp [State.confirms, State.chanConf, Chan.conf, Chan.level, State.tz, State.lvl, hr]

/-- Settles O31: the closed forms of the RUN cycle's registers, read in a state whose registers have their widths. -/
theorem runIsOneRegisterTransfer : Obligations.RunIsOneRegisterTransfer := by
  intro s h
  have hl := State.wf_legal h
  refine ⟨(runRows s).clockEdge, exec_eq_next.2 ⟨h, rfl⟩, runRows_cfg s, rfl, ?_, ?_, fun x => ?_, fun hr => ?_⟩
  · rw [State.clockEdge_script, runRows_script]
  · rw [State.clockEdge_cycle, runRows_cycle]
  · obtain ⟨htmr, hsync⟩ := State.wf_chan h x
    obtain ⟨-, -, -, hstages⟩ := (Config.legal_iff _).1 hl
    rw [State.clockEdge_regs, runRows_chan]
    exact ⟨shiftIn_eq hsync hstages _, rfl, rfl, Chan.nextTmr_of_fits hl htmr _ _⟩
  · simp only [State.clockEdge_regs, State.clockEdge_lastTaken, State.confirms_of_run hr]
    refine ⟨runRows_ctr s, runRows_rndValid s, ?_⟩
    rw [runRows_lastTaken, State.handshake, hr, Bool.not_false, Bool.and_true]

/-! ## Illegal configurations -/

theorem exec_of_illegal {s : State} (h : s.cfg.legal = false) (i : Instr) : exec i s = .refused .illegalConfig := by
  rw [exec_eq_onBlock]
  exact onBlock_eq_refused.2 (.inl ⟨rfl, h⟩)

/-- Settles O9: a step is an operation, and every operation is behind the guard. -/
theorem illegalConfigurationHasNoStep : Obligations.IllegalConfigurationHasNoStep :=
  ⟨Config.legal_iff, fun _ h => ⟨exec_of_illegal h _, exec_of_illegal h⟩⟩

/-! ## What the rows inside a cycle leave unchanged -/

theorem rowFrame_onNxt (s : State) (f : Regs → Regs) : RowFrame s (s.onNxt f) := ⟨rfl, rfl, rfl, rfl⟩

theorem rowFrame_driveFall (s : State) (x : Channel) (b : Bool) : RowFrame s (s.driveFall x b) := by simp [RowFrame]

theorem rowFrame_btnRow (s : State) (x : Channel) (st : ChanState) (tmr : Nat) (conf : Bool) :
    RowFrame s (s.btnRow x st tmr conf) := by simp [RowFrame, State.btnRow]

theorem rowFrame_rndPost (s : State) : RowFrame s (rndPost s) := by
  unfold rndPost
  split
  · exact ⟨rfl, rfl, rfl, rfl⟩
  · exact rowFrame_onNxt s _

/-- Every operation but RESET and RUN is a row inside a cycle, and its effect keeps the frame of such a row (R16). -/
theorem rowFrame_effectOf : ∀ i : Instr, i.format ≠ .rst → ∀ s : State, RowFrame s (effectOf i s)
  | .reset, h, _ | .run, h, _ => absurd rfl h
  | .edgFall x, _, s | .edgLow x, _, s | .edgHigh x, _, s => rowFrame_driveFall s x _
  | .btnIdle x, _, s | .btnArm x, _, s | .btnWait x, _, s | .btnCount x, _, s | .btnConfirm x, _, s | .btnDrop x, _, s =>
    rowFrame_btnRow s x _ _ _
  | .ctrHold, _, s | .ctrInc, _, s | .ctrDec, _, s | .ctrBoth, _, s => rowFrame_onNxt s _
  | .rndIdle, _, s | .rndWait, _, s => rowFrame_onNxt s _
  | .rndTake, _, _ => ⟨rfl, rfl, rfl, rfl⟩
  | .rndPost, _, s => rowFrame_rndPost s

/-- No operation changes the configuration (R35). -/
theorem effectOf_cfg (i : Instr) (s : State) : (effectOf i s).cfg = s.cfg := by
  by_cases hi : i.format = .rst
  · obtain rfl | rfl := i.format_eq_rst_iff.1 hi
    · exact resetRows_cfg s
    · exact runRows_cfg s
  · exact (rowFrame_effectOf i hi s).1

/-- Settles O32: the frame of the operation's effect; the inputs of a cycle are those of its script and number. -/
theorem rowsWriteTheNextStateOnly : Obligations.RowsWriteTheNextStateOnly := by
  intro i s t h
  obtain ⟨-, rfl⟩ := exec_eq_next.1 h
  refine ⟨effectOf_cfg i s, fun hi => ?_⟩
  obtain ⟨-, hregs, hscript, hcycle⟩ := rowFrame_effectOf i hi s
  exact ⟨hregs, State.inputsAt_congr hscript hcycle 0, hscript, hcycle⟩

end Sys2Proof.Machine
end

section
/-! SUPPORT. The family of 10_state.md: the widths every operation keeps (O56), the invariants of R38 at reset, along a step and
in every reached state (O54, O53, O55), nothing left between cycles (O34), and the outputs (O35). -/

namespace Sys2Proof.Machine

open Sys2Proof

/-! ## The next state of a step -/

/-- A step that answers was made by a well-formed state and gives its one next state. -/
theorem step_eq_next_iff_after {s t : State} : step s = .next t ↔ s.wf = true ∧ s.after = t := by
  constructor
  · intro h
    obtain ⟨hs, -⟩ := step_eq_next.1 h
    exact ⟨hs, Host.Outcome.next.inj ((step_eq_after hs).symm.trans h)⟩
  · rintro ⟨hs, rfl⟩
    exact step_eq_after hs

/-- The Counter after a RUN cycle. -/
theorem State.after_ctr {s : State} (hr : s.inputs.rst = false) :
    s.after.regs.ctr = counterAfter (s.chanConf .A) (s.chanConf .B) s.regs.ctr := by
  simp [State.after, hr, runRows_ctr]

/-! ## Every operation keeps the widths -/

theorem Regs.reset_fits (cfg : Config) : (Regs.reset cfg).fits cfg = true :=
  (Regs.fits_iff _ _).2 fun x => by rw [Regs.reset_chan]; exact Chan.reset_fits cfg

theorem Regs.setChan_fits {cfg : Config} {r : Regs} {c : Chan} (hr : r.fits cfg = true) (hc : c.fits cfg = true)
    (x : Channel) : (r.setChan x c).fits cfg = true := by
  rw [Regs.fits_iff] at hr ⊢
  intro y
  by_cases hy : y = x
  · rw [hy, Regs.chan_setChan]; exact hc
  · rw [Regs.chan_setChan_ne r c hy]; exact hr y

/-- A BTN row narrows the timer it writes and leaves the synchroniser alone. -/
theorem btnRow_nxt_fits {s : State} (h : s.work.nxt.fits s.cfg = true) (x : Channel) (st : ChanState) (tmr : Nat)
    (conf : Bool) : (s.btnRow x st tmr conf).work.nxt.fits s.cfg = true := by
  have hchan := (Regs.fits_iff _ _).1 h x
  obtain ⟨-, hsync⟩ := (Chan.fits_iff _ _).1 hchan
  have hst := Regs.setChan_fits (c := { s.work.nxt.chan x with st := st }) h hchan x
  have htmr : ({ s.work.nxt.chan x with st := st, tmr := zextTmr s.cfg tmr } : Chan).fits s.cfg = true :=
    (Chan.fits_iff _ _).2 ⟨zextTmr_lt _ _, hsync⟩
  simpa [State.btnRow] using Regs.setChan_fits hst htmr x

theorem rndPost_nxt_fits {s : State} (h : s.work.nxt.fits s.cfg = true) : (rndPost s).work.nxt.fits s.cfg = true := by
  unfold rndPost
  split <;> exact h

theorem runRows_nxt_fits {s : State} (h : s.wf = true) : (runRows s).work.nxt.fits s.cfg = true := by
  rw [Regs.fits_iff]
  intro x
  rw [runRows_chan]
  exact Chan.next_fits ((Chan.fits_iff _ _).2 (State.wf_chan h x)) _ _

/-- The next-state image of every operation has its widths; the CTR and RND rows write no register of a channel. -/
theorem effectOf_nxt_fits {s : State} (h : s.wf = true) (i : Instr) : (effectOf i s).work.nxt.fits s.cfg = true := by
  obtain ⟨-, -, hn⟩ := (State.wf_iff s).1 h
  cases i with
  | reset => exact (resetRows_nxt s).symm ▸ Regs.reset_fits s.cfg
  | run => exact runRows_nxt_fits h
  | edgFall x | edgLow x | edgHigh x => exact (State.driveFall_nxt s x _).symm ▸ hn
  | btnIdle x | btnArm x | btnWait x | btnCount x | btnConfirm x | btnDrop x => exact btnRow_nxt_fits hn x _ _ _
  | ctrHold | ctrInc | ctrDec | ctrBoth | rndIdle | rndWait | rndTake => exact hn
  | rndPost => exact rndPost_nxt_fits hn

/-- The registers after an operation are, at a clock edge, the next-state image, and after a row the registers before it. -/
theorem effectOf_regs (i : Instr) (s : State) :
    (effectOf i s).regs = (effectOf i s).work.nxt ∨ (effectOf i s).regs = s.regs := by
  by_cases hi : i.format = .rst
  · obtain rfl | rfl := i.format_eq_rst_iff.1 hi <;> exact .inl rfl
  · obtain ⟨-, hregs, -, -⟩ := rowFrame_effectOf i hi s
    exact .inr hregs

theorem effectOf_wf {s : State} (h : s.wf = true) (i : Instr) : (effectOf i s).wf = true := by
  obtain ⟨hl, hr, -⟩ := (State.wf_iff s).1 h
  have hn := effectOf_nxt_fits h i
  rw [State.wf_iff, effectOf_cfg]
  obtain he | he := effectOf_regs i s
  · exact ⟨hl, he ▸ hn, hn⟩
  · exact ⟨hl, he ▸ hr, hn⟩

/-- Settles O56: an operation that answers starts behind the guard, and its effect keeps the widths. -/
theorem everyOperationKeepsTheWidths : Obligations.EveryOperationKeepsTheWidths := by
  intro i s t h
  obtain ⟨hs, rfl⟩ := exec_eq_next.1 h
  exact ⟨hs, effectOf_wf hs i⟩

/-! ## The invariants of R38 -/

theorem Regs.inv_iff (cfg : Config) (r : Regs) : r.Inv cfg ↔ r.ctr.toNat ≤ 9 ∧ ∀ x : Channel, (r.chan x).Inv cfg :=
  ⟨fun ⟨hc, hA, hB⟩ => ⟨hc, fun | .A => hA | .B => hB⟩, fun ⟨hc, hx⟩ => ⟨hc, hx .A, hx .B⟩⟩

/-- `inc10` is a digit, whatever it is applied to (R100). -/
theorem inc10_le (v : Digit) : (inc10 v).toNat ≤ 9 := by
  unfold inc10
  split
  · exact Nat.zero_le 9
  · bv_omega

/-- `dec10` is a digit, whatever it is applied to (R101). -/
theorem dec10_le (v : Digit) : (dec10 v).toNat ≤ 9 := by
  unfold dec10
  split
  · exact Nat.le_refl 9
  · bv_omega

theorem counterAfter_le {v : Digit} (h : v.toNat ≤ 9) (confA confB : Bool) : (counterAfter confA confB v).toNat ≤ 9 :=
  match confA, confB with
  | false, false => h
  | true, false => inc10_le v
  | false, true => dec10_le v
  | true, true => dec10_le (inc10 v)

theorem Chan.reset_inv (cfg : Config) : (Chan.reset cfg).Inv cfg := ⟨fun _ => rfl, Nat.zero_le _⟩

theorem Regs.reset_inv (cfg : Config) : (Regs.reset cfg).Inv cfg :=
  ⟨Nat.zero_le 9, Chan.reset_inv cfg, Chan.reset_inv cfg⟩

/-- A channel is Idle after a RUN cycle only with its timer at 0: an Idle channel without an edge, and a fire, clear it. -/
theorem Chan.nextTmr_of_nextSt_idle {cfg : Config} {c : Chan} {fall tick : Bool} (h : c.nextSt fall tick = .idle) :
    c.nextTmr cfg fall tick = 0 := by
  unfold Chan.nextSt at h
  unfold Chan.nextTmr
  cases hst : c.st with
  | idle =>
    cases fall with
    | false => rfl
    | true => simp [hst] at h
  | pending =>
    cases tick with
    | false => simp [hst] at h
    | true =>
      have h0 : c.tmr = 0 := by simpa [hst] using h
      simp [h0]

/-- A RUN cycle loads a timer with `DEBOUNCE_TICKS`, counts it down, holds it or clears it. -/
theorem Chan.nextTmr_le {cfg : Config} {c : Chan} (hl : cfg.legal = true) (ht : c.tmr < 2 ^ cfg.tmrW)
    (hle : c.tmr ≤ cfg.debounceTicks) (fall tick : Bool) : c.nextTmr cfg fall tick ≤ cfg.debounceTicks := by
  rw [Chan.nextTmr_of_fits hl ht]
  cases c.st with
  | idle => cases fall <;> simp
  | pending =>
    show (if tick then c.tmr - 1 else c.tmr) ≤ cfg.debounceTicks
    split <;> omega

theorem Chan.next_inv {cfg : Config} {c : Chan} (hl : cfg.legal = true) (ht : c.tmr < 2 ^ cfg.tmrW)
    (hle : c.tmr ≤ cfg.debounceTicks) (tick btn : Bool) : (c.next cfg tick btn).Inv cfg :=
  ⟨Chan.nextTmr_of_nextSt_idle, Chan.nextTmr_le hl ht hle _ _⟩

/-- A cycle keeps the invariants, whether it is a RESET or a RUN. -/
theorem State.after_inv {s : State} (h : s.Inv) : s.after.Inv := by
  obtain ⟨hwf, hinv⟩ := h
  obtain ⟨hctr, hchan⟩ := (Regs.inv_iff _ _).1 hinv
  refine ⟨State.after_wf hwf, ?_⟩
  rw [State.after_cfg]
  cases hr : s.inputs.rst with
  | true => rw [State.after_of_reset hr]; exact Regs.reset_inv _
  | false =>
    refine (Regs.inv_iff _ _).2 ⟨?_, fun x => ?_⟩
    · rw [State.after_ctr hr]; exact counterAfter_le hctr _ _
    · obtain ⟨htmr, -⟩ := State.wf_chan hwf x
      obtain ⟨-, hle⟩ := hchan x
      rw [State.after_chan hr]
      exact Chan.next_inv (State.wf_legal hwf) htmr hle _ _

/-- Settles O53: the one next state of a state with the invariants keeps them. -/
theorem stepKeepsTheInvariants : Obligations.StepKeepsTheInvariants := by
  intro s t h hstep
  obtain ⟨-, rfl⟩ := step_eq_next_iff_after.1 hstep
  exact State.after_inv h

theorem startState_inv {c : Config} (h : c.legal = true) (l : List Inputs) : (startState c l).Inv :=
  ⟨startState_wf h l, Regs.reset_inv c⟩

/-- Settles O54: every timer is at 0 and the Counter is 0. -/
theorem invariantsHoldAfterReset : Obligations.InvariantsHoldAfterReset := fun _ l h => startState_inv h l

theorem Reachable.inv {t : State} (h : Reachable t) : t.Inv := by
  obtain ⟨c, l, n, hl, hrun⟩ := h
  exact runCycles_keeps stepKeepsTheInvariants (startState_inv hl l) hrun

/-- Settles O55: the invariants hold at reset (O54) and every step keeps them (O53). -/
theorem everyReachedStateKeepsTheInvariants : Obligations.EveryReachedStateKeepsTheInvariants := by
  intro t ht
  obtain ⟨-, hinv⟩ := ht.inv
  exact (Regs.inv_iff _ _).1 hinv

/-! ## Nothing is left between cycles -/

/-- A cycle opens with the registers alone, so it reads nothing of the cycle in progress (R37). -/
theorem State.openCycle_after (s : State) : s.openCycle.after = s.after := rfl

theorem State.after_withWork (s : State) (k : Work) : ({ s with work := k } : State).after = s.after :=
  calc ({ s with work := k } : State).after
      = ({ s with work := k } : State).openCycle.after := (State.openCycle_after _).symm
    _ = s.openCycle.after := rfl
    _ = s.after := State.openCycle_after s

theorem State.after_closed (s : State) : s.after.Closed := by unfold State.after; split <;> rfl

/-- Settles O34: a cycle overwrites what is left in `work` before it reads it, and the clock edge leaves it closed. -/
theorem nothingIsLatchedBetweenCycles : Obligations.NothingIsLatchedBetweenCycles := by
  refine ⟨fun s k hs hk => ?_, fun s t hstep => ?_⟩
  · obtain ⟨hl, hr, -⟩ := (State.wf_iff s).1 hs
    have hwf : ({ s with work := k } : State).wf = true := (State.wf_iff _).2 ⟨hl, hr, hk⟩
    rw [step_eq_after hwf, step_eq_after hs, State.after_withWork]
  · obtain ⟨-, rfl⟩ := step_eq_next_iff_after.1 hstep
    exact State.after_closed s

/-! ## The outputs -/

/-- Settles O35: each output is read off one register. -/
theorem outputsAreRegisters : Obligations.OutputsAreRegisters :=
  ⟨fun _ => ⟨rfl, rfl, ChanState.bit_eq_true, ChanState.bit_eq_true⟩, fun _ _ _ _ => ⟨rfl, rfl, rfl⟩⟩

end Sys2Proof.Machine
end

section
/-! SUPPORT. The family of 30_encoding.md: the rows of a word (O1), the words of a cycle and their bits (O4, O8), the RUN cycle
row by row (O30), the cycle arranged for a row (O36), stimulus words (O5) and scripts (O6, O7). -/

namespace Sys2Proof

/-! ## Stimulus words (R61) -/

theorem encodeStim_decodeStim (w : StimWord) : encodeStim (decodeStim w) = w := by
  revert w; decide

theorem decodeStim_encodeStim (i : Inputs) : decodeStim (encodeStim i) = i := by
  obtain ⟨rst, tick, a, b, rdy⟩ := i
  revert rst tick a b rdy
  decide

/-- The hexadecimal digits as R61 writes them. -/
def hexDigits : List Char := ['0', '1', '2', '3', '4', '5', '6', '7', '8', '9', 'A', 'B', 'C', 'D', 'E', 'F']

theorem hexValue_of_hexDigits {n : Nat} {c : Char} (h : hexDigits[n]? = some c) : hexValue c = .ok n := by
  have hn : n < 16 := (List.getElem?_eq_some_iff.1 h).1
  interval_cases n <;> cases h <;> rfl

/-- A word of five bits, carried in a byte, is read as that word. -/
theorem decodeStimByte_ofNat_toNat (w : StimWord) : decodeStimByte (BitVec.ofNat 8 w.toNat) = .ok (decodeStim w) := by
  have hnat : (BitVec.ofNat 8 w.toNat).toNat = w.toNat := by rw [BitVec.toNat_ofNat]; omega
  have hword : (BitVec.ofNat 8 w.toNat).setWidth 5 = w := BitVec.eq_of_toNat_eq (by rw [BitVec.toNat_setWidth, hnat]; omega)
  rw [decodeStimByte, hnat, hword, if_pos w.isLt]

/-- The two hexadecimal digits of a stimulus word read back as its inputs. -/
theorem decodeStimHex_of_hexDigits {w : StimWord} {hi lo : Char} (hhi : hexDigits[w.toNat / 16]? = some hi)
    (hlo : hexDigits[w.toNat % 16]? = some lo) : decodeStimHex hi lo = .ok (decodeStim w) := by
  simp only [decodeStimHex, hexValue_of_hexDigits hhi, hexValue_of_hexDigits hlo, Nat.div_add_mod]
  exact decodeStimByte_ofNat_toNat w

end Sys2Proof

namespace Sys2Proof.Machine

open Sys2Proof

theorem State.withStimuli_inputsAt {l : List Inputs} {k : Nat} {i : Inputs} (h : l[k]? = some i) (s : State) :
    (s.withStimuli l).inputsAt k = i := by
  simp [State.inputsAt, State.withStimuli, h]

/-- Settles O5: the five bits are read where they are written, and the high digit of a word is one of the first two hexadecimal
digits. -/
theorem stimulusWordIsTheInputsOfOneCycle : Obligations.StimulusWordIsTheInputsOfOneCycle := by
  refine ⟨fun w => ⟨rfl, rfl, rfl, rfl, rfl, encodeStim_decodeStim w⟩, decodeStim_encodeStim, fun w hi lo hhi hlo => ?_,
    rfl, rfl, fun s _ _ _ h => State.withStimuli_inputsAt h s⟩
  have hhigh : hexDigits[w.toNat / 16]? = some hi := by
    have hlt : w.toNat / 16 < 2 := (List.getElem?_eq_some_iff.1 hhi).1
    rw [← hhi, ← List.getElem?_take_of_lt hlt]
    rfl
  exact decodeStimHex_of_hexDigits hhigh hlo

/-! ## Scripts (R62, R63) -/

/-- Settles O6: each core statement is one equation of `stimuli`. -/
theorem scriptStatementsMakeStimuli : Obligations.ScriptStatementsMakeStimuli :=
  ⟨fun _ _ _ _ _ => ⟨rfl, rfl, rfl, rfl⟩, rfl⟩

/-- Settles O7: each pseudo-statement is one equation of `expandLine`. -/
theorem pseudoStatementsExpand : Obligations.PseudoStatementsExpand :=
  fun _ => ⟨rfl, rfl, rfl, rfl, rfl, rfl, rfl, rfl⟩

/-! ## The rows of a word (R58) -/

/-- Settles O1: a word of the format selects the row the decoder gives and no other, and that row is behind the one guard. -/
theorem everyWordSelectsExactlyOneRow : Obligations.EveryWordSelectsExactlyOneRow := by
  refine ⟨fun f x w hw => ?_, fun x => ⟨rfl, rfl, rfl, rfl, rfl, rfl, rfl, rfl, rfl, rfl⟩⟩
  obtain ⟨v, rfl⟩ := (f.wellFormed_iff_exists w).1 hw
  exact ⟨f.rowOf x v, decode_setWidth f x v, f.rowOf_mem_rows x v, f.rowMatches_iff_eq_rowOf x v,
    fun s hs => ⟨_, exec_eq_next.2 ⟨hs, rfl⟩⟩⟩

/-! ## The decode words of a cycle (R51 to R55) -/

/-- The bits of a word of two, three or five bits, the first one written being the highest. -/
theorem getLsbD_bits_two (a b : Bool) :
    (BitVec.ofBool a ++ BitVec.ofBool b).getLsbD 1 = a ∧ (BitVec.ofBool a ++ BitVec.ofBool b).getLsbD 0 = b := by
  revert a b; decide

theorem getLsbD_bits_three (a b c : Bool) :
    let w := BitVec.ofBool a ++ BitVec.ofBool b ++ BitVec.ofBool c
    w.getLsbD 2 = a ∧ w.getLsbD 1 = b ∧ w.getLsbD 0 = c := by
  revert a b c; decide

theorem getLsbD_bits_five (a b c d e : Bool) :
    let w := BitVec.ofBool a ++ BitVec.ofBool b ++ BitVec.ofBool c ++ BitVec.ofBool d ++ BitVec.ofBool e
    w.getLsbD 4 = a ∧ w.getLsbD 3 = b ∧ w.getLsbD 2 = c ∧ w.getLsbD 1 = d ∧ w.getLsbD 0 = e := by
  revert a b c d e; decide

section words
variable (s : State) (x : Channel)

theorem State.rstWord_bit : s.rstWord.getLsbD 0 = s.inputs.rst := by
  rw [State.rstWord]; cases s.inputs.rst <;> rfl

theorem State.edgWord_bits : (s.edgWord x).getLsbD 1 = (s.regs.chan x).prev ∧ (s.edgWord x).getLsbD 0 = s.lvl x :=
  getLsbD_bits_two _ _

theorem State.btnWord_bits : (s.btnWord x).getLsbD 4 = (s.regs.chan x).st.bit ∧
    (s.btnWord x).getLsbD 3 = s.work.fall x ∧ (s.btnWord x).getLsbD 2 = s.inputs.tick ∧
    (s.btnWord x).getLsbD 1 = s.tz x ∧ (s.btnWord x).getLsbD 0 = s.lvl x :=
  getLsbD_bits_five _ _ _ _ _

theorem State.ctrWord_bits : s.ctrWord.getLsbD 1 = s.work.confA ∧ s.ctrWord.getLsbD 0 = s.work.confB :=
  getLsbD_bits_two _ _

theorem State.rndWord_bits : s.rndWord.getLsbD 2 = s.upd ∧ s.rndWord.getLsbD 1 = s.regs.rndValid ∧
    s.rndWord.getLsbD 0 = s.inputs.rndReady :=
  getLsbD_bits_three _ _ _

theorem State.tz_eq_true : s.tz x = true ↔ (s.regs.chan x).tmr = 0 := beq_iff_eq

end words

/-- Settles O4: the fields of each word, bit by bit. -/
theorem decodeWordsHoldTheirFields : Obligations.DecodeWordsHoldTheirFields := by
  intro s x
  obtain ⟨hprev, hlvl⟩ := s.edgWord_bits x
  obtain ⟨hst, hfall, htick, htz, hlvl'⟩ := s.btnWord_bits x
  obtain ⟨hconfA, hconfB⟩ := s.ctrWord_bits
  exact ⟨s.rstWord_bit, hprev, hlvl, by rw [hst, ChanState.bit_eq_true], hfall, htick, by rw [htz, State.tz_eq_true], hlvl',
    hconfA, hconfB, s.rndWord_bits⟩

/-! ## The signals of a channel's cycle -/

section edgPhase
variable (x : Channel) (s : State)

@[simp] theorem edgPhase_cfg : (edgPhase x s).cfg = s.cfg := by simp [edgPhase_eq]
@[simp] theorem edgPhase_regs : (edgPhase x s).regs = s.regs := by simp [edgPhase_eq]
@[simp] theorem edgPhase_inputs : (edgPhase x s).inputs = s.inputs := by simp [edgPhase_eq]
@[simp] theorem edgPhase_fall : (edgPhase x s).work.fall x = ((s.regs.chan x).prev && !s.lvl x) := by simp [edgPhase_eq]

end edgPhase

theorem State.lvl_congr {s t : State} (hcfg : s.cfg = t.cfg) (hregs : s.regs = t.regs) (x : Channel) :
    s.lvl x = t.lvl x := by simp [State.lvl, hcfg, hregs]

@[simp] theorem edgPhase_lvl (x y : Channel) (s : State) : (edgPhase x s).lvl y = s.lvl y :=
  State.lvl_congr (edgPhase_cfg x s) (edgPhase_regs x s) y

/-- The BTN word of a channel after its EDG row is one of the configuration, the registers and the inputs (R50). -/
theorem edgPhase_btnWord_congr {s t : State} (hcfg : s.cfg = t.cfg) (hregs : s.regs = t.regs)
    (hinputs : s.inputs = t.inputs) (x : Channel) : (edgPhase x s).btnWord x = (edgPhase x t).btnWord x := by
  simp [State.btnWord, State.tz, State.lvl, hcfg, hregs, hinputs]

/-- Settles O8: `fall_X` is driven for a low level only. -/
theorem fallAndHighLevelNeverMeet : Obligations.FallAndHighLevelNeverMeet := by
  rintro s x ⟨hfall, hlvl⟩
  obtain ⟨-, hbit3, -, -, hbit0⟩ := (edgPhase x s).btnWord_bits x
  rw [hbit3, edgPhase_fall] at hfall
  rw [hbit0, edgPhase_lvl] at hlvl
  simp [hlvl] at hfall

/-! ## The operation of a cycle (R51) -/

theorem decodeRst_of_run {s : State} (hr : s.inputs.rst = false) : decodeRst s.rstWord = .run := by
  rw [decodeRst, State.rstWord_bit, hr]

theorem decodeRst_of_reset {s : State} (hr : s.inputs.rst = true) : decodeRst s.rstWord = .reset := by
  rw [decodeRst, State.rstWord_bit, hr]

/-! ## The rows of a RUN cycle as operations (R56) -/

/-- A selected row, as an operation, has the effect the RUN cycle performs. -/
theorem effectOf_edgRow (x : Channel) (r : EdgRow) : effectOf (r.instr x) = performEdg x r := by cases r <;> rfl
theorem effectOf_btnRow (x : Channel) (r : BtnRow) : effectOf (r.instr x) = performBtn x r := by cases r <;> rfl
theorem effectOf_ctrRow (r : CtrRow) : effectOf r.instr = performCtr r := by cases r <;> rfl
theorem effectOf_rndRow (r : RndRow) : effectOf r.instr = performRnd r := by cases r <;> rfl

section rows
variable {s : State} (h : s.wf = true) (x : Channel)
include h

theorem exec_edgRow : exec ((decodeEdg (s.edgWord x)).instr x) s = .next (edgPhase x s) :=
  exec_eq_next.2 ⟨h, by rw [effectOf_edgRow]; rfl⟩
theorem exec_btnRow : exec ((decodeBtn (s.btnWord x)).instr x) s = .next (btnPhase x s) :=
  exec_eq_next.2 ⟨h, by rw [effectOf_btnRow]; rfl⟩
theorem exec_ctrRow : exec (decodeCtr s.ctrWord).instr s = .next (ctrPhase s) :=
  exec_eq_next.2 ⟨h, by rw [effectOf_ctrRow]; rfl⟩
theorem exec_rndRow : exec (decodeRnd s.rndWord).instr s = .next (rndPhase s) :=
  exec_eq_next.2 ⟨h, by rw [effectOf_rndRow]; rfl⟩

/-- Changing one channel of the next-state image keeps the widths when it keeps those of the channel. -/
theorem State.onChan_wf {f : Chan → Chan} (hf : ∀ c : Chan, c.fits s.cfg = true → (f c).fits s.cfg = true) :
    (s.onChan x f).wf = true := by
  obtain ⟨hl, hr, hn⟩ := (State.wf_iff s).1 h
  exact (State.wf_iff _).2 ⟨hl, hr, Regs.setChan_fits hn (hf _ ((Regs.fits_iff _ _).1 hn x)) x⟩

theorem syncShift_wf : (syncShift x s).wf = true := by
  refine State.onChan_wf h x fun c hc => (Chan.fits_iff _ _).2 ⟨((Chan.fits_iff _ _).1 hc).1, ?_⟩
  exact shiftIn_length (State.wf_chan h x).2 _

theorem prevLatch_wf : (prevLatch x s).wf = true := State.onChan_wf h x fun _ hc => hc

end rows

/-- Settles O30: in the order of R56 each row is performed by the operation its word selects, every state in between has its
widths, and the RUN cycle is their composition up to the clock edge. -/
theorem runPerformsTheSelectedRows : Obligations.RunPerformsTheSelectedRows := by
  intro s hs
  refine ⟨fun hr => by rw [step, decodeRst_of_run hr]; rfl, fun hr => by rw [step, decodeRst_of_reset hr]; rfl, ?_⟩
  have keep {i : Instr} {u v : State} (hexec : exec i u = .next v) : v.wf = true :=
    (everyOperationKeepsTheWidths i u v hexec).2
  obtain ⟨hl, hr, -⟩ := (State.wf_iff s).1 hs
  have hopen : s.openCycle.wf = true := (State.wf_iff _).2 ⟨hl, hr, hr⟩
  have ha1 := exec_edgRow hopen .A
  have ha2 := exec_btnRow (keep ha1) .A
  have hb1 := exec_edgRow (prevLatch_wf (syncShift_wf (keep ha2) .A) .A) .B
  have hb2 := exec_btnRow (keep hb1) .B
  have hc := exec_ctrRow (prevLatch_wf (syncShift_wf (keep hb2) .B) .B)
  exact ⟨_, _, _, _, _, _, ha1, ha2, hb1, hb2, hc, exec_rndRow (keep hc), exec_eq_next.2 ⟨hs, rfl⟩, rfl⟩

/-! ## When each EDG and BTN row is selected (R73 to R86) -/

section selection
variable {s : State} {x : Channel}

theorem decodeEdg_fall (hprev : (s.regs.chan x).prev = true) (hlvl : s.lvl x = false) :
    decodeEdg (s.edgWord x) = .fall := by
  simp only [decodeEdg, State.edgWord_bits, hprev, hlvl]
theorem decodeEdg_low (hprev : (s.regs.chan x).prev = false) (hlvl : s.lvl x = false) :
    decodeEdg (s.edgWord x) = .low := by
  simp only [decodeEdg, State.edgWord_bits, hprev, hlvl]
theorem decodeEdg_high (hlvl : s.lvl x = true) : decodeEdg (s.edgWord x) = .high := by
  simp only [decodeEdg, State.edgWord_bits, hlvl]

theorem decodeBtn_idle (hst : (s.regs.chan x).st = .idle) (hfall : s.work.fall x = false) :
    decodeBtn (s.btnWord x) = .idle := by
  simp only [decodeBtn, State.btnWord_bits, hst, ChanState.bit_idle, hfall]
theorem decodeBtn_arm (hst : (s.regs.chan x).st = .idle) (hfall : s.work.fall x = true) :
    decodeBtn (s.btnWord x) = .arm := by
  simp only [decodeBtn, State.btnWord_bits, hst, ChanState.bit_idle, hfall]
theorem decodeBtn_wait (hst : (s.regs.chan x).st = .pending) (htick : s.inputs.tick = false) :
    decodeBtn (s.btnWord x) = .wait := by
  simp only [decodeBtn, State.btnWord_bits, hst, ChanState.bit_pending, htick]
theorem decodeBtn_count (hst : (s.regs.chan x).st = .pending) (htick : s.inputs.tick = true)
    (htmr : (s.regs.chan x).tmr ≠ 0) : decodeBtn (s.btnWord x) = .count := by
  have htz : s.tz x = false := by rwa [← Bool.not_eq_true, State.tz_eq_true]
  simp only [decodeBtn, State.btnWord_bits, hst, ChanState.bit_pending, htick, htz]
theorem decodeBtn_confirm (hst : (s.regs.chan x).st = .pending) (htick : s.inputs.tick = true)
    (htmr : (s.regs.chan x).tmr = 0) (hlvl : s.lvl x = false) : decodeBtn (s.btnWord x) = .confirm := by
  have htz : s.tz x = true := (State.tz_eq_true s x).2 htmr
  simp only [decodeBtn, State.btnWord_bits, hst, ChanState.bit_pending, htick, htz, hlvl]
theorem decodeBtn_drop (hst : (s.regs.chan x).st = .pending) (htick : s.inputs.tick = true)
    (htmr : (s.regs.chan x).tmr = 0) (hlvl : s.lvl x = true) : decodeBtn (s.btnWord x) = .drop := by
  have htz : s.tz x = true := (State.tz_eq_true s x).2 htmr
  simp only [decodeBtn, State.btnWord_bits, hst, ChanState.bit_pending, htick, htz, hlvl]

end selection

/-! ## The rows a RUN cycle performs, from its registers and inputs -/

section mem_rowsPerformed
variable {s : State} (hr : s.inputs.rst = false)
include hr

theorem rowsPerformed_of_run : rowsPerformed s =
    [.run,
      (decodeEdg (s.openCycle.edgWord .A)).instr .A, (decodeBtn ((edgPhase .A s.openCycle).btnWord .A)).instr .A,
      (decodeEdg ((channelPhase .A s.openCycle).edgWord .B)).instr .B,
      (decodeBtn ((edgPhase .B (channelPhase .A s.openCycle)).btnWord .B)).instr .B,
      (decodeCtr (channelPhase .B (channelPhase .A s.openCycle)).ctrWord).instr,
      (decodeRnd (ctrPhase (channelPhase .B (channelPhase .A s.openCycle))).rndWord).instr] := by
  rw [rowsPerformed, decodeRst_of_run hr]

theorem run_mem_rowsPerformed : .run ∈ rowsPerformed s := by simp [rowsPerformed_of_run hr]

/-- The EDG row of a channel is the one that its registers select, whichever channel comes first. -/
theorem edgRow_mem_rowsPerformed {x : Channel} {r : EdgRow} (h : decodeEdg (s.edgWord x) = r) :
    r.instr x ∈ rowsPerformed s := by
  have hA : s.openCycle.edgWord .A = s.edgWord .A := rfl
  have hB : (channelPhase .A s.openCycle).edgWord .B = s.edgWord .B := by simp [State.edgWord, State.lvl]
  rw [rowsPerformed_of_run hr, hA, hB, ← h]
  cases x <;> simp

/-- The BTN row of a channel is the one selected after its EDG row. -/
theorem btnRow_mem_rowsPerformed {x : Channel} {r : BtnRow} (h : decodeBtn ((edgPhase x s).btnWord x) = r) :
    r.instr x ∈ rowsPerformed s := by
  have hA : (edgPhase .A s.openCycle).btnWord .A = (edgPhase .A s).btnWord .A :=
    edgPhase_btnWord_congr (s := s.openCycle) (t := s) rfl rfl rfl .A
  have hB : (edgPhase .B (channelPhase .A s.openCycle)).btnWord .B = (edgPhase .B s).btnWord .B :=
    edgPhase_btnWord_congr (by simp) (by simp) (by simp) .B
  rw [rowsPerformed_of_run hr, hA, hB, ← h]
  cases x <;> simp

/-- The CTR row is the one the two confirms select. -/
theorem ctrRow_mem_rowsPerformed {r : CtrRow}
    (h : decodeCtr (BitVec.ofBool (s.chanConf .A) ++ BitVec.ofBool (s.chanConf .B)) = r) : r.instr ∈ rowsPerformed s := by
  obtain ⟨hA, hB⟩ := runRows_confs s
  have hword : (channelPhase .B (channelPhase .A s.openCycle)).ctrWord =
      BitVec.ofBool (s.chanConf .A) ++ BitVec.ofBool (s.chanConf .B) := by rw [State.ctrWord, hA, hB]
  rw [rowsPerformed_of_run hr, hword, h]
  simp

/-- The RND row is the one selected by the confirms, the request and the renderer. -/
theorem rndRow_mem_rowsPerformed {r : RndRow}
    (h : decodeRnd (BitVec.ofBool (s.chanConf .A || s.chanConf .B) ++ BitVec.ofBool s.regs.rndValid ++
      BitVec.ofBool s.inputs.rndReady) = r) : r.instr ∈ rowsPerformed s := by
  obtain ⟨hA, hB⟩ := runRows_confs s
  have hword : (ctrPhase (channelPhase .B (channelPhase .A s.openCycle))).rndWord =
      BitVec.ofBool (s.chanConf .A || s.chanConf .B) ++ BitVec.ofBool s.regs.rndValid ++
        BitVec.ofBool s.inputs.rndReady := by
    simp [State.rndWord, State.upd, ctrPhase_eq, hA, hB]
  rw [rowsPerformed_of_run hr, hword, h]
  simp

end mem_rowsPerformed

/-! ## Arranged states -/

section arranged
variable (s : State)

@[simp] theorem State.prescribe_cfg (f : Inputs → Inputs) : (s.prescribe f).cfg = s.cfg := by
  unfold State.prescribe; split <;> rfl
@[simp] theorem State.prescribe_regs (f : Inputs → Inputs) : (s.prescribe f).regs = s.regs := by
  unfold State.prescribe; split <;> rfl
@[simp] theorem State.prescribe_work (f : Inputs → Inputs) : (s.prescribe f).work = s.work := by
  unfold State.prescribe; split <;> rfl
@[simp] theorem State.prescribe_script (f : Inputs → Inputs) :
    (s.prescribe f).script = f (s.script.headD quietInputs) :: s.script.tail := by
  unfold State.prescribe; split <;> simp [*]
/-- The inputs of the cycle are those already prescribed, or the quiet ones, changed. -/
@[simp] theorem State.prescribe_inputs (f : Inputs → Inputs) :
    (s.prescribe f).inputs = f (s.script.headD quietInputs) := by
  simp [State.inputs, State.inputsAt]
@[simp] theorem State.prescribe_lvl (f : Inputs → Inputs) (x : Channel) : (s.prescribe f).lvl x = s.lvl x :=
  State.lvl_congr (State.prescribe_cfg s f) (State.prescribe_regs s f) x

@[simp] theorem State.runCycle_eq : s.runCycle = s.prescribe fun i => { i with rst := false } := rfl
@[simp] theorem State.runTick_eq (tick : Bool) :
    s.runTick tick = s.prescribe fun i => { i with rst := false, tick := tick } := rfl

@[simp] theorem State.onRegs_regs (f : Regs → Regs) : (s.onRegs f).regs = f s.regs := rfl
@[simp] theorem State.onRegChan_cfg (x : Channel) (f : Chan → Chan) : (s.onRegChan x f).cfg = s.cfg := rfl
@[simp] theorem State.onRegChan_chan (x : Channel) (f : Chan → Chan) :
    (s.onRegChan x f).regs.chan x = f (s.regs.chan x) := Regs.chan_setChan _ _ _
@[simp] theorem State.due_chan (x : Channel) (b : Bool) : (s.due x b).regs.chan x =
    ⟨.pending, 0, withLevel b (s.regs.chan x).sync, (s.regs.chan x).prev⟩ := State.onRegChan_chan s x _
theorem State.onRegChan_chan_of_ne {x y : Channel} (hy : y ≠ x) (f : Chan → Chan) :
    (s.onRegChan x f).regs.chan y = s.regs.chan y := Regs.chan_setChan_ne _ _ hy
end arranged

theorem withLevel_length {n : Nat} {sync : List Bool} (hs : sync.length = n) (hn : 1 ≤ n) (b : Bool) :
    (withLevel b sync).length = n := by
  rw [withLevel, List.length_append, List.length_dropLast, hs, List.length_singleton, Nat.sub_add_cancel hn]

theorem withLevel_getD {n : Nat} {sync : List Bool} (hs : sync.length = n) (b : Bool) :
    (withLevel b sync).getD (n - 1) true = b := by
  have hlen : sync.dropLast.length = n - 1 := by rw [List.length_dropLast, hs]
  rw [withLevel, List.getD_append_right _ _ _ _ hlen.le, hlen, Nat.sub_self]
  rfl

/-! ### Their widths -/

section widths
variable {s : State} (h : s.wf = true)
include h

theorem State.prescribe_wf (f : Inputs → Inputs) : (s.prescribe f).wf = true := by
  rw [State.wf_iff] at h ⊢
  simpa using h

theorem State.onRegs_wf {f : Regs → Regs} (hf : (f s.regs).fits s.cfg = true) : (s.onRegs f).wf = true := by
  obtain ⟨hl, -, -⟩ := (State.wf_iff s).1 h
  exact (State.wf_iff _).2 ⟨hl, hf, hf⟩

theorem State.onRegChan_wf (x : Channel) {f : Chan → Chan} (hf : (f (s.regs.chan x)).fits s.cfg = true) :
    (s.onRegChan x f).wf = true := by
  obtain ⟨-, hr, -⟩ := (State.wf_iff s).1 h
  exact State.onRegs_wf h (Regs.setChan_fits hr hf x)

theorem State.wf_syncStages : 1 ≤ s.cfg.syncStages := by
  obtain ⟨-, -, -, hstages⟩ := (Config.legal_iff _).1 (State.wf_legal h)
  exact hstages

/-- A channel with the level of its synchroniser arranged keeps its widths. -/
theorem State.withLevel_fits (x : Channel) (b : Bool) (st : ChanState) {tmr : Nat} (htmr : tmr < 2 ^ s.cfg.tmrW)
    (prev : Bool) : Chan.fits s.cfg ⟨st, tmr, withLevel b (s.regs.chan x).sync, prev⟩ = true :=
  (Chan.fits_iff _ _).2 ⟨htmr, withLevel_length (State.wf_chan h x).2 (State.wf_syncStages h) b⟩

/-- The timer that BTN.COUNT is arranged with has its width. -/
theorem State.max_one_tmr_lt (x : Channel) : max 1 (s.regs.chan x).tmr < 2 ^ s.cfg.tmrW := by
  obtain ⟨-, -, hwidth, -⟩ := (Config.legal_iff _).1 (State.wf_legal h)
  exact max_lt (Nat.one_lt_two_pow (by omega)) (State.wf_chan h x).1

theorem State.due_wf (x : Channel) (b : Bool) : (s.due x b).wf = true :=
  State.onRegChan_wf h x (State.withLevel_fits h x b _ (Nat.two_pow_pos _) _)

theorem State.atRest_wf (x : Channel) : (s.atRest x).wf = true :=
  State.onRegChan_wf h x ((Chan.fits_iff _ _).2 ⟨Nat.two_pow_pos _, (State.wf_chan h x).2⟩)

/-- An arranged state is a state of the block, its registers of their widths. -/
theorem State.arrange_wf (i : Instr) : (s.arrange i).wf = true := by
  have hregs : s.regs.fits s.cfg = true := ((State.wf_iff s).1 h).2.1
  have hchan (x : Channel) : (s.regs.chan x).fits s.cfg = true := (Regs.fits_iff _ _).1 hregs x
  cases i with
  | reset | run | ctrHold => exact State.prescribe_wf h _
  | edgFall x | edgLow x | edgHigh x | btnArm x =>
    exact State.prescribe_wf (State.onRegChan_wf h x (State.withLevel_fits h x _ _ (State.wf_chan h x).1 _)) _
  | btnIdle x | btnWait x => exact State.prescribe_wf (State.onRegChan_wf h x (hchan x)) _
  | btnCount x =>
    refine State.prescribe_wf (State.onRegChan_wf h x ((Chan.fits_iff _ _).2 ?_)) _
    exact ⟨State.max_one_tmr_lt h x, (State.wf_chan h x).2⟩
  | btnConfirm x | btnDrop x => exact State.prescribe_wf (State.due_wf h x _) _
  | ctrInc | ctrDec => exact State.prescribe_wf (State.atRest_wf (State.due_wf h _ _) _) _
  | ctrBoth => exact State.prescribe_wf (State.due_wf (State.due_wf h _ _) _ _) _
  | rndIdle => exact State.prescribe_wf (State.onRegs_wf h hregs) _
  | rndWait | rndTake => exact State.prescribe_wf (State.prescribe_wf (State.onRegs_wf h hregs) _) _
  | rndPost => exact State.prescribe_wf (State.due_wf h _ _) _

/-! ### Their levels and confirms -/

/-- The level of a channel is the one its synchroniser is arranged with (R72). -/
theorem State.onRegChan_lvl {x : Channel} {f : Chan → Chan} {b : Bool}
    (hf : (f (s.regs.chan x)).sync = withLevel b (s.regs.chan x).sync) : (s.onRegChan x f).lvl x = b := by
  obtain ⟨-, hsync⟩ := State.wf_chan h x
  rw [State.lvl, State.onRegChan_chan, State.onRegChan_cfg, hf, withLevel_getD hsync]

theorem State.prescribe_onRegChan_lvl {x : Channel} {f : Chan → Chan} {g : Inputs → Inputs} {b : Bool}
    (hf : (f (s.regs.chan x)).sync = withLevel b (s.regs.chan x).sync) :
    ((s.onRegChan x f).prescribe g).lvl x = b := by
  rw [State.prescribe_lvl, State.onRegChan_lvl h hf]

theorem State.due_lvl (x : Channel) (b : Bool) : (s.due x b).lvl x = b := State.onRegChan_lvl h rfl

/-- A channel due to fire confirms at a tick when its level is low (R85). -/
theorem State.due_conf (x : Channel) (b tick : Bool) :
    ((s.due x b).regs.chan x).conf s.cfg tick = (tick && !b) := by
  have hlvl : ((s.due x b).regs.chan x).level s.cfg = b := State.due_lvl h x b
  rw [Chan.conf, hlvl]
  simp

end widths

/-- A channel at rest does not confirm. -/
theorem State.atRest_conf (s : State) (cfg : Config) (x : Channel) (tick : Bool) :
    ((s.atRest x).regs.chan x).conf cfg tick = false := by
  simp [State.atRest, Chan.conf]

theorem State.due_chan_of_ne (s : State) {x y : Channel} (hy : y ≠ x) (b : Bool) :
    (s.due x b).regs.chan y = s.regs.chan y := State.onRegChan_chan_of_ne s hy _

theorem State.atRest_chan_of_ne (s : State) {x y : Channel} (hy : y ≠ x) :
    (s.atRest x).regs.chan y = s.regs.chan y := State.onRegChan_chan_of_ne s hy _

/-- In a RUN cycle a channel confirms by its registers and the tick given. -/
theorem State.runTick_chanConf (s : State) (tick : Bool) (x : Channel) :
    (s.runTick tick).chanConf x = (s.regs.chan x).conf s.cfg tick := by
  simp [State.chanConf]

/-- No channel confirms without a tick (R85). -/
theorem State.chanConf_of_no_tick {s : State} (htick : s.inputs.tick = false) (x : Channel) : s.chanConf x = false := by
  simp [State.chanConf, Chan.conf, htick]

/-- Of a channel due to fire and another at rest, the first alone confirms at the tick. -/
theorem State.chanConf_due_atRest {s : State} (h : s.wf = true) {x y : Channel} (hxy : x ≠ y) :
    (((s.due x false).atRest y).runTick true).chanConf x = true ∧
      (((s.due x false).atRest y).runTick true).chanConf y = false := by
  rw [State.runTick_chanConf, State.runTick_chanConf, State.atRest_chan_of_ne _ hxy, State.atRest_conf]
  exact ⟨State.due_conf h x false true, rfl⟩

/-- Two channels due to fire both confirm at the tick. -/
theorem State.chanConf_due_due {s : State} (h : s.wf = true) {x y : Channel} (hxy : x ≠ y) :
    (((s.due x false).due y false).runTick true).chanConf x = true ∧
      (((s.due x false).due y false).runTick true).chanConf y = true := by
  rw [State.runTick_chanConf, State.runTick_chanConf, State.due_chan_of_ne _ hxy]
  exact ⟨State.due_conf h x false true, State.due_conf (State.due_wf h x false) y false true⟩

/-! ### The row each performs -/

/-- The arranged cycle of every operation but RESET is a RUN cycle. -/
theorem State.arrange_rst (s : State) {i : Instr} (hi : i ≠ .reset) : (s.arrange i).inputs.rst = false := by
  cases i with
  | reset => exact absurd rfl hi
  | _ => simp [State.arrange]

section performed
variable {s : State} (h : s.wf = true)
include h

theorem edgRow_mem_arrange (x : Channel) (r : EdgRow) : r.instr x ∈ rowsPerformed (s.arrange (r.instr x)) := by
  have hr : (s.arrange (r.instr x)).inputs.rst = false := s.arrange_rst (by cases r <;> simp [EdgRow.instr])
  refine edgRow_mem_rowsPerformed hr ?_
  cases r with
  | fall => exact decodeEdg_fall (by simp [State.arrange, EdgRow.instr]) (State.prescribe_onRegChan_lvl h rfl)
  | low => exact decodeEdg_low (by simp [State.arrange, EdgRow.instr]) (State.prescribe_onRegChan_lvl h rfl)
  | high => exact decodeEdg_high (State.prescribe_onRegChan_lvl h rfl)

theorem btnRow_mem_arrange (x : Channel) (r : BtnRow) : r.instr x ∈ rowsPerformed (s.arrange (r.instr x)) := by
  have hr : (s.arrange (r.instr x)).inputs.rst = false := s.arrange_rst (by cases r <;> simp [BtnRow.instr])
  refine btnRow_mem_rowsPerformed hr ?_
  cases r with
  | idle =>
    have hlvl : (s.arrange (.btnIdle x)).lvl x = s.lvl x := by simp [State.arrange, State.lvl]
    refine decodeBtn_idle (by simp [State.arrange, BtnRow.instr]) ?_
    rw [edgPhase_fall, BtnRow.instr, hlvl]
    simp [State.arrange]
  | arm =>
    have hlvl : (s.arrange (.btnArm x)).lvl x = false := State.prescribe_onRegChan_lvl h rfl
    refine decodeBtn_arm (by simp [State.arrange, BtnRow.instr]) ?_
    rw [edgPhase_fall, BtnRow.instr, hlvl]
    simp [State.arrange]
  | wait => apply decodeBtn_wait <;> simp [State.arrange, BtnRow.instr]
  | count => apply decodeBtn_count <;> simp [State.arrange, BtnRow.instr]
  | confirm => apply decodeBtn_confirm <;> simp [State.arrange, BtnRow.instr, State.due_lvl h]
  | drop => apply decodeBtn_drop <;> simp [State.arrange, BtnRow.instr, State.due_lvl h]

theorem ctrRow_mem_arrange (r : CtrRow) : r.instr ∈ rowsPerformed (s.arrange r.instr) := by
  have hr : (s.arrange r.instr).inputs.rst = false := s.arrange_rst (by cases r <;> simp [CtrRow.instr])
  refine ctrRow_mem_rowsPerformed hr ?_
  cases r with
  | hold =>
    have htick : (s.arrange .ctrHold).inputs.tick = false := by simp [State.arrange]
    rw [CtrRow.instr, State.chanConf_of_no_tick htick, State.chanConf_of_no_tick htick]
    rfl
  | inc =>
    obtain ⟨hA, hB⟩ := State.chanConf_due_atRest h (x := .A) (y := .B) (by decide)
    rw [CtrRow.instr, State.arrange, hA, hB]
    rfl
  | dec =>
    obtain ⟨hB, hA⟩ := State.chanConf_due_atRest h (x := .B) (y := .A) (by decide)
    rw [CtrRow.instr, State.arrange, hA, hB]
    rfl
  | both =>
    obtain ⟨hA, hB⟩ := State.chanConf_due_due h (x := .A) (y := .B) (by decide)
    rw [CtrRow.instr, State.arrange, hA, hB]
    rfl

theorem rndRow_mem_arrange (r : RndRow) : r.instr ∈ rowsPerformed (s.arrange r.instr) := by
  have hr : (s.arrange r.instr).inputs.rst = false := s.arrange_rst (by cases r <;> simp [RndRow.instr])
  refine rndRow_mem_rowsPerformed hr ?_
  cases r with
  | idle =>
    have htick : (s.arrange .rndIdle).inputs.tick = false := by simp [State.arrange]
    have hvalid : (s.arrange .rndIdle).regs.rndValid = false := by simp [State.arrange]
    rw [RndRow.instr, State.chanConf_of_no_tick htick, State.chanConf_of_no_tick htick, hvalid]
    cases (s.arrange .rndIdle).inputs.rndReady <;> rfl
  | wait =>
    have htick : (s.arrange .rndWait).inputs.tick = false := by simp [State.arrange]
    have hvalid : (s.arrange .rndWait).regs.rndValid = true := by simp [State.arrange]
    have hready : (s.arrange .rndWait).inputs.rndReady = false := by simp [State.arrange]
    rw [RndRow.instr, State.chanConf_of_no_tick htick, State.chanConf_of_no_tick htick, hvalid, hready]
    rfl
  | take =>
    have htick : (s.arrange .rndTake).inputs.tick = false := by simp [State.arrange]
    have hvalid : (s.arrange .rndTake).regs.rndValid = true := by simp [State.arrange]
    have hready : (s.arrange .rndTake).inputs.rndReady = true := by simp [State.arrange]
    rw [RndRow.instr, State.chanConf_of_no_tick htick, State.chanConf_of_no_tick htick, hvalid, hready]
    rfl
  | post =>
    have hA : (s.arrange .rndPost).chanConf .A = true :=
      (State.runTick_chanConf _ _ _).trans (State.due_conf h .A false true)
    rw [RndRow.instr, hA, Bool.true_or]
    cases (s.arrange .rndPost).regs.rndValid <;> cases (s.arrange .rndPost).inputs.rndReady <;> rfl

/-- Every operation is among the rows of its arranged cycle (log entry 10). -/
theorem mem_rowsPerformed_arrange : ∀ i : Instr, i ∈ rowsPerformed (s.arrange i)
  | .reset => by
    have hr : (s.arrange .reset).inputs.rst = true := by simp [State.arrange]
    simp [rowsPerformed, decodeRst_of_reset hr]
  | .run => run_mem_rowsPerformed (s.arrange_rst (by decide))
  | .edgFall x => edgRow_mem_arrange h x .fall
  | .edgLow x => edgRow_mem_arrange h x .low
  | .edgHigh x => edgRow_mem_arrange h x .high
  | .btnIdle x => btnRow_mem_arrange h x .idle
  | .btnArm x => btnRow_mem_arrange h x .arm
  | .btnWait x => btnRow_mem_arrange h x .wait
  | .btnCount x => btnRow_mem_arrange h x .count
  | .btnConfirm x => btnRow_mem_arrange h x .confirm
  | .btnDrop x => btnRow_mem_arrange h x .drop
  | .ctrHold => ctrRow_mem_arrange h .hold
  | .ctrInc => ctrRow_mem_arrange h .inc
  | .ctrDec => ctrRow_mem_arrange h .dec
  | .ctrBoth => ctrRow_mem_arrange h .both
  | .rndIdle => rndRow_mem_arrange h .idle
  | .rndWait => rndRow_mem_arrange h .wait
  | .rndTake => rndRow_mem_arrange h .take
  | .rndPost => rndRow_mem_arrange h .post

end performed

/-- Settles O36: the registers and inputs arranged for an operation select it, and the arranged state has its widths. -/
theorem arrangedRowIsPerformed : Obligations.ArrangedRowIsPerformed :=
  fun _ i h => ⟨mem_rowsPerformed_arrange h i, _, step_eq_after (State.arrange_wf h i)⟩

end Sys2Proof.Machine
end

section
/-! SUPPORT. The family of 40_edge_detect.md: the EDG rows (O13, O14), the synchroniser over one cycle (O37) and over several
(O38), and the latency from a press to BTN.ARM (O39), after a reset (O40) and for a pulse in flight (O58). -/

namespace Sys2Proof.Machine

open Sys2Proof

/-! ## The EDG rows (R73 to R75) -/

section edgRows
variable (s : State) (x : Channel)

theorem decodeEdg_eq_fall_iff :
    decodeEdg (s.edgWord x) = .fall ↔ (s.regs.chan x).prev = true ∧ s.lvl x = false := by
  simp only [decodeEdg, State.edgWord_bits]
  cases (s.regs.chan x).prev <;> cases s.lvl x <;> simp

theorem decodeEdg_eq_low_iff :
    decodeEdg (s.edgWord x) = .low ↔ (s.regs.chan x).prev = false ∧ s.lvl x = false := by
  simp only [decodeEdg, State.edgWord_bits]
  cases (s.regs.chan x).prev <;> cases s.lvl x <;> simp

theorem decodeEdg_eq_high_iff : decodeEdg (s.edgWord x) = .high ↔ s.lvl x = true := by
  simp only [decodeEdg, State.edgWord_bits]
  cases (s.regs.chan x).prev <;> cases s.lvl x <;> simp

/-- Driving `fall_X` is all that an EDG row does. -/
theorem edgFrame_driveFall (b : Bool) : EdgFrame x s (s.driveFall x b) :=
  ⟨rowFrame_driveFall s x b, s.driveFall_lastTaken x b, s.driveFall_nxt x b, s.driveFall_fall_other x b,
    s.driveFall_confA x b, s.driveFall_confB x b⟩

end edgRows

/-! ## The synchroniser and `prev` over one RUN cycle (R70, R71) -/

section oneCycle
variable {s : State} (h : s.wf = true) (hr : s.inputs.rst = false) (x : Channel)
include hr

/-- PREV (R71). -/
theorem State.after_prev : (s.after.regs.chan x).prev = s.lvl x := by rw [State.after_chan hr]; rfl

theorem State.after_st : (s.after.regs.chan x).st =
    (s.regs.chan x).nextSt ((s.regs.chan x).prev && !s.lvl x) s.inputs.tick := by rw [State.after_chan hr]; rfl

/-- A high level is no falling edge, so it leaves an Idle channel Idle (R75, R81). -/
theorem State.after_idle_of_high (hst : (s.regs.chan x).st = .idle) (hlvl : s.lvl x = true) :
    (s.after.regs.chan x).st = .idle := by
  simp [State.after_st hr, Chan.nextSt, hst, hlvl]

include h

/-- SYNC (R70). -/
theorem State.after_sync : (s.after.regs.chan x).sync = s.inputs.btn x :: (s.regs.chan x).sync.dropLast := by
  rw [State.after_chan hr]
  exact shiftIn_eq (State.wf_chan h x).2 (State.wf_syncStages h) _

theorem State.after_sync_zero : (s.after.regs.chan x).sync[0]? = some (s.inputs.btn x) := by
  rw [State.after_sync h hr, List.getElem?_cons_zero]

theorem State.after_sync_succ {i : Nat} (hi : i + 1 < s.cfg.syncStages) :
    (s.after.regs.chan x).sync[i + 1]? = (s.regs.chan x).sync[i]? := by
  have hlen := (State.wf_chan h x).2
  rw [State.after_sync h hr, List.getElem?_cons_succ, List.getElem?_dropLast, if_pos (by omega)]

/-- A falling edge arms an Idle channel, with the whole delay in its timer (R73, R82). -/
theorem State.after_armed_of_fall (hst : (s.regs.chan x).st = .idle) (hfall : decodeEdg (s.edgWord x) = .fall) :
    (s.after.regs.chan x).st = .pending ∧ (s.after.regs.chan x).tmr = s.cfg.debounceTicks := by
  obtain ⟨hprev, hlvl⟩ := (decodeEdg_eq_fall_iff s x).1 hfall
  have hlevel : (s.regs.chan x).level s.cfg = false := hlvl
  rw [State.after_chan hr]
  simp [Chan.next, Chan.nextSt, Chan.nextTmr, hst, hprev, hlevel, zextTmr_debounceTicks (State.wf_legal h)]

end oneCycle

/-! ## Runs without a reset -/

theorem noReset_mono {s : State} {m n : Nat} (hn : noReset s n) (hle : m ≤ n) : noReset s m :=
  fun k hk => hn k (hk.trans_le hle)

/-- Each of the cycles without a reset is a RUN cycle. -/
theorem State.afterN_rst_of_noReset {s : State} {n k : Nat} (hn : noReset s n) (hk : k < n) :
    (s.afterN k).inputs.rst = false := by rw [State.afterN_inputs]; exact hn k hk

/-- A run that starts with a step goes on from the state after it. -/
theorem runCycles_succ_after {s : State} (h : s.wf = true) (n : Nat) : runCycles (n + 1) s = runCycles n s.after := by
  simp only [runCycles, step_eq_after h]

/-! ## The level over several RUN cycles (R72) -/

/-- The level is the last stage of the synchroniser. -/
theorem State.some_lvl {s : State} (h : s.wf = true) (x : Channel) :
    some (s.lvl x) = (s.regs.chan x).sync[s.cfg.syncStages - 1]? := by
  have hlen := (State.wf_chan h x).2
  have hstages := State.wf_syncStages h
  have hlast : s.cfg.syncStages - 1 < (s.regs.chan x).sync.length := by omega
  simp [State.lvl, List.getElem?_eq_getElem hlast]

section severalCycles
variable {s : State} (h : s.wf = true) (x : Channel)
include h

/-- In `n` RUN cycles what stands in a stage moves on by `n` stages. -/
theorem State.afterN_sync_shifted {n : Nat} (hn : noReset s n) {i : Nat} (hi : i + n < s.cfg.syncStages) :
    ((s.afterN n).regs.chan x).sync[i + n]? = (s.regs.chan x).sync[i]? := by
  induction n with
  | zero => rfl
  | succ n ih =>
    have hrun := State.afterN_rst_of_noReset hn n.lt_succ_self
    rw [State.afterN_succ, ← Nat.add_assoc,
      State.after_sync_succ (State.afterN_wf h n) hrun x (by rw [State.afterN_cfg]; omega)]
    exact ih (noReset_mono hn n.le_succ) (by omega)

/-- The pin of cycle `k` stands in stage `i` in cycle `k + 1 + i`. -/
theorem State.afterN_sync_sampled {k i : Nat} (hn : noReset s (k + 1 + i)) (hi : i < s.cfg.syncStages) :
    ((s.afterN (k + 1 + i)).regs.chan x).sync[i]? = some ((s.inputsAt k).btn x) := by
  induction i with
  | zero =>
    have hrun := State.afterN_rst_of_noReset hn k.lt_succ_self
    rw [Nat.add_zero, State.afterN_succ, State.after_sync_zero (State.afterN_wf h k) hrun, State.afterN_inputs]
  | succ i ih =>
    have hrun := State.afterN_rst_of_noReset hn (k + 1 + i).lt_succ_self
    rw [← Nat.add_assoc, State.afterN_succ,
      State.after_sync_succ (State.afterN_wf h _) hrun x (by rwa [State.afterN_cfg])]
    exact ih (noReset_mono hn (Nat.le_succ _)) (by omega)

/-- The level is the pin sampled `SYNC_STAGES` cycles earlier. -/
theorem State.afterN_lvl_sampled (hn : noReset s s.cfg.syncStages) :
    (s.afterN s.cfg.syncStages).lvl x = (s.inputsAt 0).btn x := by
  have hstages := State.wf_syncStages h
  have hcycles : 0 + 1 + (s.cfg.syncStages - 1) = s.cfg.syncStages := by omega
  have hpin := State.afterN_sync_sampled h x (k := 0) (i := s.cfg.syncStages - 1) (by rwa [hcycles]) (by omega)
  rw [hcycles] at hpin
  have hlast := State.some_lvl (State.afterN_wf h s.cfg.syncStages) x
  rw [State.afterN_cfg, hpin] at hlast
  exact Option.some.inj hlast

/-- A synchroniser full of 1s keeps the level high until a pin sampled after it has passed (R72, R76). -/
theorem State.afterN_lvl_of_sync_high (hsync : (s.regs.chan x).sync = List.replicate s.cfg.syncStages true) {n : Nat}
    (hn : noReset s n) (hlt : n < s.cfg.syncStages) : (s.afterN n).lvl x = true := by
  have hshift := State.afterN_sync_shifted h x hn (i := s.cfg.syncStages - 1 - n) (by omega)
  rw [show s.cfg.syncStages - 1 - n + n = s.cfg.syncStages - 1 by omega, hsync,
    List.getElem?_replicate_of_lt (by omega)] at hshift
  have hlast := State.some_lvl (State.afterN_wf h n) x
  rw [State.afterN_cfg, hshift] at hlast
  exact Option.some.inj hlast

end severalCycles

/-! ## From a press to BTN.ARM (R76) -/

section press
variable {s : State} (h : s.wf = true) {x : Channel}
  (hsync : (s.regs.chan x).sync = List.replicate s.cfg.syncStages true)
include h hsync

/-- While the synchroniser gives only its 1s, the channel stays Idle. -/
theorem State.afterN_idle_of_sync_high (hst : (s.regs.chan x).st = .idle) {n : Nat} (hn : noReset s n)
    (hle : n ≤ s.cfg.syncStages) : ((s.afterN n).regs.chan x).st = .idle := by
  induction n with
  | zero => exact hst
  | succ n ih =>
    have hn' := noReset_mono hn n.le_succ
    exact State.after_idle_of_high (State.afterN_rst_of_noReset hn n.lt_succ_self) x (ih hn' (Nat.le_of_lt hle))
      (State.afterN_lvl_of_sync_high h x hsync hn' hle)

/-- The first low sample is a falling edge `SYNC_STAGES` cycles later: the level then is that sample, and the level of the cycle
before was still one of the 1s. -/
theorem State.afterN_fall_of_press (hn : noReset s s.cfg.syncStages) (hpin : (s.inputsAt 0).btn x = false) :
    decodeEdg ((s.afterN s.cfg.syncStages).edgWord x) = .fall := by
  have hlow : (s.afterN s.cfg.syncStages).lvl x = false := (State.afterN_lvl_sampled h x hn).trans hpin
  obtain ⟨m, hm⟩ := Nat.exists_eq_add_of_le' (State.wf_syncStages h)
  have hlt : m < s.cfg.syncStages := by omega
  have hhigh := State.afterN_lvl_of_sync_high h x hsync (noReset_mono hn hlt.le) hlt
  refine (decodeEdg_eq_fall_iff _ x).2 ⟨?_, hlow⟩
  rw [hm, State.afterN_succ, State.after_prev (State.afterN_rst_of_noReset hn hlt), hhigh]

/-- That cycle ends with the channel armed. -/
theorem State.afterN_armed_of_press (hst : (s.regs.chan x).st = .idle) (hn : noReset s (s.cfg.syncStages + 1))
    (hpin : (s.inputsAt 0).btn x = false) :
    ((s.afterN (s.cfg.syncStages + 1)).regs.chan x).st = .pending ∧
      ((s.afterN (s.cfg.syncStages + 1)).regs.chan x).tmr = s.cfg.debounceTicks := by
  have hn' := noReset_mono hn (Nat.le_succ _)
  have harmed := State.after_armed_of_fall (State.afterN_wf h _)
    (State.afterN_rst_of_noReset hn (Nat.lt_succ_self _)) x
    (State.afterN_idle_of_sync_high h hsync hst hn' le_rfl) (State.afterN_fall_of_press h hsync hn' hpin)
  rwa [State.afterN_cfg] at harmed

end press

/-! ## The statements -/

/-- Settles O39: the level falls when the sample reaches the last stage and not before, so the channel is Idle up to that cycle
and armed at its end. -/
theorem pressArmsAfterTheSynchroniser : Obligations.PressArmsAfterTheSynchroniser := by
  intro s x h hst hsync hrun hpin
  have hn := noReset_mono hrun (Nat.le_succ _)
  obtain ⟨hpending, htmr⟩ := State.afterN_armed_of_press h hsync hst hrun hpin
  refine ⟨⟨_, runCycles_eq_afterN h _, (State.afterN_lvl_sampled h x hn).trans hpin,
      State.afterN_fall_of_press h hsync hn hpin⟩,
    fun k hk => ⟨_, runCycles_eq_afterN h k, ChanState.bit_eq_false.2 ?_⟩,
    ⟨_, runCycles_eq_afterN h _, ChanState.bit_eq_true.2 hpending, htmr⟩⟩
  exact State.afterN_idle_of_sync_high h hsync hst (noReset_mono hn hk) hk

/-- A channel after a RESET cycle (R140). -/
theorem State.after_chan_of_reset {s : State} (hr : s.inputs.rst = true) (x : Channel) :
    s.after.regs.chan x = Chan.reset s.cfg := by rw [State.after_of_reset hr, Regs.reset_chan]

/-- The synchroniser after a RESET cycle is full of 1s. -/
theorem State.after_sync_of_reset {s : State} (hr : s.inputs.rst = true) (x : Channel) :
    (s.after.regs.chan x).sync = List.replicate s.after.cfg.syncStages true := by
  rw [State.after_chan_of_reset hr, State.after_cfg]; rfl

/-- Settles O40: the state after the reset cycle is Idle with a synchroniser of 1s, and the held button is a press sampled in
the next cycle (O39). -/
theorem buttonHeldThroughResetArms : Obligations.ButtonHeldThroughResetArms := by
  intro s x h hr hheld
  have hst : (s.after.regs.chan x).st = .idle := by rw [State.after_chan_of_reset hr]; rfl
  have hrun : noReset s.after (s.after.cfg.syncStages + 1) := fun k hk => by
    rw [State.after_inputsAt]
    rw [State.after_cfg] at hk
    exact (hheld (k + 1) (by omega) (by omega)).1
  have hpin : (s.after.inputsAt 0).btn x = false := by
    rw [State.after_inputsAt]
    exact (hheld 1 le_rfl (by omega)).2
  obtain ⟨-, hidle, u, hu, hpend, -⟩ := pressArmsAfterTheSynchroniser s.after x (State.after_wf h) hst
    (State.after_sync_of_reset hr x) hrun hpin
  rw [State.after_cfg] at hidle hu
  refine ⟨fun k h1 hk => ?_, u, by rw [runCycles_succ_after h, hu], hpend⟩
  obtain ⟨k, rfl⟩ : ∃ j, k = j + 1 := ⟨k - 1, by omega⟩
  rw [runCycles_succ_after h]
  exact hidle k (by omega)

/-- Settles O38: the last stage holds the pin of `SYNC_STAGES` cycles ago, or one of the 1s that a reset loaded. -/
theorem levelIsThePinSampledEarlier : Obligations.LevelIsThePinSampledEarlier := by
  refine ⟨fun s x h => State.some_lvl h x,
    fun s x h hn => ⟨_, runCycles_eq_afterN h _, State.afterN_lvl_sampled h x hn⟩, fun s x k h hr hk hrun => ?_⟩
  have hn : noReset s.after k := fun j hj => by
    rw [State.after_inputsAt]
    exact hrun (j + 1) (by omega) (by omega)
  exact ⟨_, (runCycles_succ_after h k).trans (runCycles_eq_afterN (State.after_wf h) k),
    State.afterN_lvl_of_sync_high (State.after_wf h) x (State.after_sync_of_reset hr x) hn (by rwa [State.after_cfg])⟩

/-- Settles O37: the shift stage by stage, and `prev_X`. -/
theorem synchroniserShiftsAndPrevFollows : Obligations.SynchroniserShiftsAndPrevFollows := by
  intro s x h hr
  have hlen := (State.wf_chan (State.after_wf h) x).2
  rw [State.after_cfg] at hlen
  exact ⟨s.after, step_eq_after h, hlen, State.after_sync_zero h hr x, fun _ hi => State.after_sync_succ h hr x hi,
    State.after_prev hr x⟩

/-- Settles O13: after a falling edge `prev_X` is the low level, which selects no second one. -/
theorem edgFallYieldsOneCycleOfFall : Obligations.EdgFallYieldsOneCycleOfFall := by
  intro s x h
  refine ⟨decodeEdg_eq_fall_iff s x,
    ⟨_, exec_eq_next.2 ⟨h, rfl⟩, s.driveFall_fall x true, edgFrame_driveFall s x true⟩,
    fun hfall hr => ⟨s.after, step_eq_after h, fun hagain => ?_⟩⟩
  obtain ⟨-, hlvl⟩ := (decodeEdg_eq_fall_iff s x).1 hfall
  obtain ⟨hprev, -⟩ := (decodeEdg_eq_fall_iff s.after x).1 hagain
  rw [State.after_prev hr, hlvl] at hprev
  exact Bool.false_ne_true hprev

/-- Settles O14: the two words without a falling edge drive `fall_X` low. -/
theorem edgLowAndHighYieldNoFall : Obligations.EdgLowAndHighYieldNoFall := by
  intro s x h
  exact ⟨decodeEdg_eq_low_iff s x,
    ⟨_, exec_eq_next.2 ⟨h, rfl⟩, s.driveFall_fall x false, edgFrame_driveFall s x false⟩,
    decodeEdg_eq_high_iff s x,
    ⟨_, exec_eq_next.2 ⟨h, rfl⟩, s.driveFall_fall x false, edgFrame_driveFall s x false⟩⟩

/-- A press of A for the one cycle in which the renderer takes the startup digit, then both pins high. -/
def pulseInFlight : List Inputs := [decodeStim 0x03, decodeStim 0x07, decodeStim 0x07, decodeStim 0x07]

/-- Settles O58: after the first cycle of `pulseInFlight` the block is quiescent, with the low sample in stage 0. -/
theorem pulseInFlightStillArms : Obligations.PulseInFlightStillArms := by
  have hwf := startState_wf (c := Config.default) (by decide) pulseInFlight
  exact ⟨pulseInFlight, 1, _, runCycles_eq_afterN hwf 1, by decide, by decide, by decide, by decide,
    _, runCycles_eq_afterN (State.afterN_wf hwf 1) 3, by decide⟩

end Sys2Proof.Machine
end

section
/-! SUPPORT. The family of 41_debounce_fsm.md: the BTN rows (O15 to O20), a pending channel over one cycle (O41, O42) and over
several (O42, O43, O44), the one level a fire reads (O45), and the independence of the channels (O46). -/

namespace Sys2Proof.Machine

open Sys2Proof

/-! ## The BTN rows (R81 to R86) -/

/-- When each BTN row of a channel is selected (R53). -/
def State.SelectsBtn (s : State) (x : Channel) : BtnRow → Prop
  | .idle => (s.regs.chan x).st = .idle ∧ s.work.fall x = false
  | .arm => (s.regs.chan x).st = .idle ∧ s.work.fall x = true
  | .wait => (s.regs.chan x).st = .pending ∧ s.inputs.tick = false
  | .count => (s.regs.chan x).st = .pending ∧ s.inputs.tick = true ∧ 1 ≤ (s.regs.chan x).tmr
  | .confirm => (s.regs.chan x).st = .pending ∧ s.inputs.tick = true ∧ (s.regs.chan x).tmr = 0 ∧ s.lvl x = false
  | .drop => (s.regs.chan x).st = .pending ∧ s.inputs.tick = true ∧ (s.regs.chan x).tmr = 0 ∧ s.lvl x = true

section btnRows
variable (s : State) (x : Channel)

/-- Some row's condition holds: by the edge in Idle, and by the tick, the timer and the level in PendingDebounce. -/
theorem State.selectsBtn_decodeBtn : s.SelectsBtn x (decodeBtn (s.btnWord x)) := by
  cases hst : (s.regs.chan x).st with
  | idle =>
    cases hfall : s.work.fall x with
    | false => rw [decodeBtn_idle hst hfall]; exact ⟨hst, hfall⟩
    | true => rw [decodeBtn_arm hst hfall]; exact ⟨hst, hfall⟩
  | pending =>
    cases htick : s.inputs.tick with
    | false => rw [decodeBtn_wait hst htick]; exact ⟨hst, htick⟩
    | true =>
      by_cases htmr : (s.regs.chan x).tmr = 0
      · cases hlvl : s.lvl x with
        | false => rw [decodeBtn_confirm hst htick htmr hlvl]; exact ⟨hst, htick, htmr, hlvl⟩
        | true => rw [decodeBtn_drop hst htick htmr hlvl]; exact ⟨hst, htick, htmr, hlvl⟩
      · rw [decodeBtn_count hst htick htmr]; exact ⟨hst, htick, Nat.pos_of_ne_zero htmr⟩

theorem decodeBtn_eq_iff (r : BtnRow) : decodeBtn (s.btnWord x) = r ↔ s.SelectsBtn x r := by
  constructor
  · rintro rfl
    exact s.selectsBtn_decodeBtn x
  · intro h
    cases r with
    | idle => obtain ⟨hst, hfall⟩ := h; exact decodeBtn_idle hst hfall
    | arm => obtain ⟨hst, hfall⟩ := h; exact decodeBtn_arm hst hfall
    | wait => obtain ⟨hst, htick⟩ := h; exact decodeBtn_wait hst htick
    | count => obtain ⟨hst, htick, htmr⟩ := h; exact decodeBtn_count hst htick (Nat.ne_of_gt htmr)
    | confirm => obtain ⟨hst, htick, htmr, hlvl⟩ := h; exact decodeBtn_confirm hst htick htmr hlvl
    | drop => obtain ⟨hst, htick, htmr, hlvl⟩ := h; exact decodeBtn_drop hst htick htmr hlvl

variable (st : ChanState) (tmr : Nat) (conf : Bool)

@[simp] theorem btnRow_st : ((s.btnRow x st tmr conf).work.nxt.chan x).st = st := by simp [State.btnRow]
@[simp] theorem btnRow_tmr : ((s.btnRow x st tmr conf).work.nxt.chan x).tmr = zextTmr s.cfg tmr := by simp [State.btnRow]
@[simp] theorem btnRow_conf : (s.btnRow x st tmr conf).work.conf x = conf := by simp [State.btnRow]
@[simp] theorem btnRow_conf_other : (s.btnRow x st tmr conf).work.conf x.other = s.work.conf x.other := by
  simp [State.btnRow]

/-- Writing `st_X` and `tmr_X` and driving `conf_X` is all that a BTN row does. -/
theorem btnFrame_btnRow : BtnFrame x s (s.btnRow x st tmr conf) :=
  ⟨rowFrame_btnRow s x st tmr conf, by simp [State.btnRow]⟩

end btnRows

/-! ## The update that the confirms select (R54, R110) -/

/-- The CTR row where channel `x` confirms, by whether the other one does (R54). -/
def confirmRow (x : Channel) (other : Bool) : CtrRow :=
  match x, other with
  | .A, false => .inc
  | .B, false => .dec
  | _, true => .both

section confirms
variable {s : State} {x : Channel}

theorem decodeCtr_of_confirm (hx : s.work.conf x = true) :
    decodeCtr s.ctrWord = confirmRow x (s.work.conf x.other) := by
  cases x with
  | A =>
    have hA : s.work.confA = true := hx
    rw [State.ctrWord, hA, Channel.other_A, Work.conf_B]
    cases s.work.confB <;> rfl
  | B =>
    have hB : s.work.confB = true := hx
    rw [State.ctrWord, hB, Channel.other_B, Work.conf_A]
    cases s.work.confA <;> rfl

theorem State.upd_eq_conf_or (s : State) (x : Channel) : s.upd = (s.work.conf x || s.work.conf x.other) := by
  cases x
  · rfl
  · exact Bool.or_comm _ _

/-- Without an update no channel confirms, and the Counter is held. -/
theorem decodeCtr_of_no_upd (h : s.upd = false) : decodeCtr s.ctrWord = .hold := by
  obtain ⟨hA, hB⟩ := Bool.or_eq_false_iff.1 h
  rw [State.ctrWord, hA, hB]
  rfl

end confirms

/-! ## The statements about the rows -/

/-- Settles O15: the row writes 0 into the timer, whatever it held. -/
theorem btnIdleClearsTheTimer : Obligations.BtnIdleClearsTheTimer := by
  intro s x h
  refine ⟨decodeBtn_eq_iff s x .idle, btnIdle x s, exec_eq_next.2 ⟨h, rfl⟩, btnRow_st .., ?_, btnRow_conf ..,
    btnFrame_btnRow ..⟩
  rw [btnIdle, btnRow_tmr, zextTmr_zero]

/-- Settles O16: `DEBOUNCE_TICKS` fits the timer, and a RUN cycle with a falling edge of an Idle channel performs the row and
then moves the low level into `prev_X`. -/
theorem btnArmSchedulesTheDelay : Obligations.BtnArmSchedulesTheDelay := by
  intro s x h
  refine ⟨decodeBtn_eq_iff s x .arm,
    ⟨btnArm x s, exec_eq_next.2 ⟨h, rfl⟩, btnRow_st .., ?_, btnRow_conf .., btnFrame_btnRow ..⟩,
    fun hr hst hprev hlvl => ?_⟩
  · rw [btnArm, btnRow_tmr, zextTmr_zextTmr, zextTmr_debounceTicks (State.wf_legal h)]
  · obtain ⟨hpending, htmr⟩ := State.after_armed_of_fall h hr x hst (decodeEdg_fall hprev hlvl)
    exact ⟨s.after, step_eq_after h, hpending, htmr, (State.after_prev hr x).trans hlvl, ChanState.bit_eq_true.2 hpending⟩

/-- Settles O17: the timer written is the timer read, which has its width. -/
theorem btnWaitHoldsTheTimer : Obligations.BtnWaitHoldsTheTimer := by
  intro s x h
  refine ⟨decodeBtn_eq_iff s x .wait, btnWait x s, exec_eq_next.2 ⟨h, rfl⟩, btnRow_st .., ?_, btnRow_conf ..,
    btnFrame_btnRow ..⟩
  obtain ⟨hfits, -⟩ := State.wf_chan h x
  rw [btnWait, btnRow_tmr, zextTmr_of_lt hfits]

/-- Settles O18: a timer of at least 1 goes down by one without a wrap. -/
theorem btnCountTakesOneTick : Obligations.BtnCountTakesOneTick := by
  intro s x h
  refine ⟨decodeBtn_eq_iff s x .count, btnCount x s, exec_eq_next.2 ⟨h, rfl⟩, btnRow_st .., fun hpos => ?_,
    btnRow_conf .., btnFrame_btnRow ..⟩
  obtain ⟨hfits, -⟩ := State.wf_chan h x
  rw [btnCount, btnRow_tmr, tmrPred_of_pos hpos hfits, zextTmr_of_lt (by omega)]

/-- Settles O19: the confirm driven is one of the two bits of the CTR word, the other channel's is what it was. -/
theorem btnConfirmYieldsConf : Obligations.BtnConfirmYieldsConf := by
  intro s x h
  have hconf : (btnConfirm x s).work.conf x = true := btnRow_conf ..
  refine ⟨decodeBtn_eq_iff s x .confirm, btnConfirm x s, exec_eq_next.2 ⟨h, rfl⟩, btnRow_st .., ?_, hconf,
    btnFrame_btnRow .., ?_, ?_⟩
  · rw [btnConfirm, btnRow_tmr, zextTmr_zero]
  · rw [State.upd_eq_conf_or _ x, hconf, Bool.true_or]
  · rw [decodeCtr_of_confirm hconf, btnConfirm, btnRow_conf_other]
    rfl

/-- Settles O20: without a confirm of either channel there is no update. -/
theorem btnDropIsSilent : Obligations.BtnDropIsSilent := by
  intro s x h
  refine ⟨decodeBtn_eq_iff s x .drop, btnDrop x s, exec_eq_next.2 ⟨h, rfl⟩, btnRow_st .., ?_, btnRow_conf ..,
    btnFrame_btnRow .., fun hother => ?_⟩
  · rw [btnDrop, btnRow_tmr, zextTmr_zero]
  · have hupd : (btnDrop x s).upd = false := by
      rw [State.upd_eq_conf_or _ x, btnDrop, btnRow_conf, btnRow_conf_other, hother, Bool.or_false]
    exact ⟨decodeCtr_of_no_upd hupd, hupd⟩

/-! ## A pending channel over one RUN cycle (R83 to R87) -/

theorem ChanState.ne_idle_iff {v : ChanState} : v ≠ .idle ↔ v = .pending := by cases v <;> simp

/-- The fall of a cycle is masked in PendingDebounce, so `prev_X` is of no consequence to the channel (R87). -/
theorem Chan.next_withPrev {c : Chan} (hc : c.st = .pending) (cfg : Config) (tick btn b : Bool) :
    Chan.next cfg tick btn { c with prev := b } = c.next cfg tick btn := by
  simp [Chan.next, Chan.nextSt, Chan.nextTmr, Chan.level, hc]

section pendingCycle
variable {s : State} (h : s.wf = true) (hr : s.inputs.rst = false) {x : Channel} (hst : (s.regs.chan x).st = .pending)

include hr hst

/-- A pending channel ends Idle exactly by a tick with its timer at 0. -/
theorem State.after_idle_iff_of_pending :
    (s.after.regs.chan x).st = .idle ↔ s.inputs.tick = true ∧ (s.regs.chan x).tmr = 0 := by
  simp [State.after_st hr, Chan.nextSt, hst]

/-- At the fire, which is due at a tick with the timer at 0, the channel confirms exactly when the level is low (R85, R86). -/
theorem State.confirms_of_due (htick : s.inputs.tick = true) (htmr : (s.regs.chan x).tmr = 0) :
    s.confirms x = !s.lvl x := by
  simp [State.confirms, State.tz, hr, hst, htick, htmr]

include h

theorem State.after_tmr_of_pending :
    (s.after.regs.chan x).tmr = (s.regs.chan x).tmr - if s.inputs.tick then 1 else 0 := by
  obtain ⟨hfits, -⟩ := State.wf_chan h x
  have hnext := Chan.nextTmr_of_fits (State.wf_legal h) hfits ((s.regs.chan x).prev && !s.lvl x) s.inputs.tick
  rw [hst] at hnext
  rw [State.after_chan hr]
  refine hnext.trans ?_
  cases s.inputs.tick <;> rfl

end pendingCycle

/-! ## The whole state after a RUN cycle -/

theorem State.eq_of_closed {s t : State} (hs : s.Closed) (ht : t.Closed) (hcfg : s.cfg = t.cfg) (hregs : s.regs = t.regs)
    (hscript : s.script = t.script) (hcycle : s.cycle = t.cycle) (htaken : s.lastTaken = t.lastTaken) : s = t := by
  have hwork : s.work = t.work := by rw [hs, ht, hregs]
  cases s
  cases t
  simp_all

theorem Regs.eq_of_chan {r q : Regs} (hchan : ∀ x, r.chan x = q.chan x) (hctr : r.ctr = q.ctr)
    (hvalid : r.rndValid = q.rndValid) : r = q := by
  obtain ⟨hA, hB⟩ : r.chA = q.chA ∧ r.chB = q.chB := ⟨hchan .A, hchan .B⟩
  cases r
  cases q
  simp_all

theorem State.after_rndValid {s : State} (hr : s.inputs.rst = false) : s.after.regs.rndValid =
    (s.chanConf .A || s.chanConf .B || (s.regs.rndValid && !s.inputs.rndReady)) := by
  simp [State.after, hr, runRows_rndValid]

theorem State.after_lastTaken {s : State} (hr : s.inputs.rst = false) : s.after.lastTaken =
    if s.regs.rndValid && s.inputs.rndReady then some s.regs.ctr else s.lastTaken := by
  simp [State.after, hr, runRows_lastTaken]

/-- The state with another value of `prev_X` on channel `x`. -/
def State.withPrev (s : State) (x : Channel) (b : Bool) : State :=
  { s with regs := s.regs.setChan x { s.regs.chan x with prev := b } }

section withPrev
variable (s : State) (x : Channel) (b : Bool)

@[simp] theorem State.withPrev_cfg : (s.withPrev x b).cfg = s.cfg := rfl
@[simp] theorem State.withPrev_script : (s.withPrev x b).script = s.script := rfl
@[simp] theorem State.withPrev_cycle : (s.withPrev x b).cycle = s.cycle := rfl
@[simp] theorem State.withPrev_inputs : (s.withPrev x b).inputs = s.inputs := rfl
@[simp] theorem State.withPrev_ctr : (s.withPrev x b).regs.ctr = s.regs.ctr := by simp [State.withPrev]
@[simp] theorem State.withPrev_rndValid : (s.withPrev x b).regs.rndValid = s.regs.rndValid := by simp [State.withPrev]
@[simp] theorem State.withPrev_chan : (s.withPrev x b).regs.chan x = { s.regs.chan x with prev := b } := by
  simp [State.withPrev]
theorem State.withPrev_chan_of_ne {y : Channel} (hy : y ≠ x) : (s.withPrev x b).regs.chan y = s.regs.chan y :=
  Regs.chan_setChan_ne _ _ hy

theorem State.withPrev_chanConf (y : Channel) : (s.withPrev x b).chanConf y = s.chanConf y := by
  by_cases hy : y = x
  · subst hy; simp [State.chanConf, Chan.conf, Chan.level]
  · simp [State.chanConf, State.withPrev_chan_of_ne s x b hy]

variable {s}

theorem State.withPrev_wf (h : s.wf = true) : (s.withPrev x b).wf = true := by
  obtain ⟨hl, hregs, hnxt⟩ := (State.wf_iff s).1 h
  exact (State.wf_iff _).2 ⟨hl, Regs.setChan_fits hregs (c := { s.regs.chan x with prev := b })
    ((Regs.fits_iff _ _).1 hregs x) x, hnxt⟩

/-- `prev_X` of a pending channel is of no consequence to a RUN cycle (R87). -/
theorem State.withPrev_after (hr : s.inputs.rst = false) (hst : (s.regs.chan x).st = .pending) :
    (s.withPrev x b).after = s.after := by
  have hr' : (s.withPrev x b).inputs.rst = false := hr
  refine State.eq_of_closed (State.after_closed _) (State.after_closed _) (by simp)
    (Regs.eq_of_chan (fun y => ?_) ?_ ?_) (by simp) (by simp) ?_
  · rw [State.after_chan hr', State.after_chan hr]
    by_cases hy : y = x
    · subst hy; rw [State.withPrev_chan]; exact Chan.next_withPrev hst _ _ _ b
    · rw [State.withPrev_chan_of_ne s x b hy]; rfl
  · rw [State.after_ctr hr', State.after_ctr hr, State.withPrev_chanConf, State.withPrev_chanConf, State.withPrev_ctr]
  · rw [State.after_rndValid hr', State.after_rndValid hr, State.withPrev_chanConf, State.withPrev_chanConf,
      State.withPrev_rndValid, State.withPrev_inputs]
  · rw [State.after_lastTaken hr', State.after_lastTaken hr, State.withPrev_rndValid, State.withPrev_ctr,
      State.withPrev_inputs]
    rfl

end withPrev

/-! ## The BTN rows that a cycle performs -/

@[simp] theorem EdgRow.instr_format (x : Channel) (r : EdgRow) : (r.instr x).format = .edg := by cases r <;> rfl
@[simp] theorem BtnRow.instr_format (x : Channel) (r : BtnRow) : (r.instr x).format = .btn := by cases r <;> rfl
@[simp] theorem CtrRow.instr_format (r : CtrRow) : r.instr.format = .ctr := by cases r <;> rfl
@[simp] theorem RndRow.instr_format (r : RndRow) : r.instr.format = .rnd := by cases r <;> rfl

theorem BtnRow.instr_inj {x y : Channel} {r q : BtnRow} : r.instr x = q.instr y ↔ x = y ∧ r = q := by
  cases r <;> cases q <;> simp [BtnRow.instr]

section performed
variable {s : State} (hr : s.inputs.rst = false)
include hr

theorem reset_notMem_rowsPerformed : .reset ∉ rowsPerformed s := by
  have hformat {i : Instr} (hi : i.format ≠ .rst) : .reset ≠ i := fun h => hi (h ▸ rfl)
  simp [rowsPerformed_of_run hr, hformat]

/-- A RUN cycle performs two BTN rows, each the one selected after the channel's EDG row. -/
theorem btnRows_of_run : (rowsPerformed s).filter (fun i => i.format = .btn) =
    [(decodeBtn ((edgPhase .A s).btnWord .A)).instr .A, (decodeBtn ((edgPhase .B s).btnWord .B)).instr .B] := by
  have hA : (edgPhase .A s.openCycle).btnWord .A = (edgPhase .A s).btnWord .A :=
    edgPhase_btnWord_congr (s := s.openCycle) (t := s) rfl rfl rfl .A
  have hB : (edgPhase .B (channelPhase .A s.openCycle)).btnWord .B = (edgPhase .B s).btnWord .B :=
    edgPhase_btnWord_congr (by simp) (by simp) (by simp) .B
  have hrun : Instr.run.format = .rst := rfl
  simp [rowsPerformed_of_run hr, hA, hB, hrun]

/-- A RUN cycle performs a BTN row on a channel exactly when it is selected after the channel's EDG row. -/
theorem btnRow_mem_rowsPerformed_iff {x : Channel} {r : BtnRow} :
    r.instr x ∈ rowsPerformed s ↔ (edgPhase x s).SelectsBtn x r := by
  have hfilter : r.instr x ∈ rowsPerformed s ↔ r.instr x ∈ (rowsPerformed s).filter fun i => i.format = .btn := by
    simp
  rw [hfilter, btnRows_of_run hr, ← decodeBtn_eq_iff]
  cases x <;> simp [BtnRow.instr_inj, eq_comm]

end performed

/-! ## A pending channel over several RUN cycles -/

theorem tickCount_mono (s : State) {m n : Nat} (hmn : m ≤ n) : tickCount s m ≤ tickCount s n :=
  monotone_nat_of_le_succ (f := tickCount s) (fun _ => Nat.le_add_right _ _) hmn

theorem tickCount_succ_of_tick {s : State} {n : Nat} (htick : (s.inputsAt n).tick = true) :
    tickCount s (n + 1) = tickCount s n + 1 := by simp [tickCount, htick]

theorem tickCount_of_no_tick {s : State} {n : Nat} (hno : ∀ k, k < n → (s.inputsAt k).tick = false) :
    tickCount s n = 0 := by
  induction n with
  | zero => rfl
  | succ n ih => simp [tickCount, ih fun k hk => hno k (hk.trans n.lt_succ_self), hno n n.lt_succ_self]

section pendingRun
variable {s : State} (h : s.wf = true) {x : Channel} (hst : (s.regs.chan x).st = .pending) {n : Nat}
include h hst

/-- While no more ticks have come than its timer held, a pending channel stays pending, and each tick has taken one off. -/
theorem State.afterN_pending (hn : noReset s n) (hticks : tickCount s n ≤ (s.regs.chan x).tmr) :
    ((s.afterN n).regs.chan x).st = .pending ∧
      ((s.afterN n).regs.chan x).tmr = (s.regs.chan x).tmr - tickCount s n := by
  induction n with
  | zero => exact ⟨hst, rfl⟩
  | succ n ih =>
    obtain ⟨hpending, htmr⟩ := ih (noReset_mono hn n.le_succ) ((tickCount_mono s n.le_succ).trans hticks)
    have hrun := State.afterN_rst_of_noReset hn n.lt_succ_self
    have hidle := State.after_idle_iff_of_pending hrun hpending
    rw [State.afterN_inputs] at hidle
    refine ⟨ChanState.ne_idle_iff.1 fun hfire => ?_, ?_⟩
    · obtain ⟨htick, hout⟩ := hidle.1 hfire
      have hcount := tickCount_succ_of_tick htick
      omega
    · rw [State.afterN_succ, State.after_tmr_of_pending (State.afterN_wf h n) hrun hpending, htmr, State.afterN_inputs,
        Nat.sub_sub]
      rfl

/-- At the tick after those that its timer held, the channel fires: it confirms exactly when the level is low, and ends Idle. -/
theorem State.afterN_fires (hn : noReset s (n + 1)) (hticks : tickCount s n = (s.regs.chan x).tmr)
    (htick : (s.inputsAt n).tick = true) :
    (s.afterN n).confirms x = !(s.afterN n).lvl x ∧ ((s.afterN (n + 1)).regs.chan x).st = .idle ∧
      ((s.afterN (n + 1)).regs.chan x).tmr = 0 := by
  obtain ⟨hpending, htmr⟩ := State.afterN_pending h hst (noReset_mono hn n.le_succ) hticks.le
  have hrun := State.afterN_rst_of_noReset hn n.lt_succ_self
  have htick' : (s.afterN n).inputs.tick = true := by rw [State.afterN_inputs, htick]
  rw [hticks, Nat.sub_self] at htmr
  refine ⟨State.confirms_of_due hrun hpending htick' htmr,
    (State.after_idle_iff_of_pending hrun hpending).2 ⟨htick', htmr⟩, ?_⟩
  rw [State.afterN_succ, State.after_tmr_of_pending (State.afterN_wf h n) hrun hpending, htmr, Nat.zero_sub]

end pendingRun

/-- Before the last of the ticks that its timer held, a pending channel does not confirm: where a tick comes, the timer has
not run out. -/
theorem State.afterN_no_confirm {s : State} (h : s.wf = true) {x : Channel} (hst : (s.regs.chan x).st = .pending) {k : Nat}
    (hn : noReset s k) (hticks : tickCount s (k + 1) ≤ (s.regs.chan x).tmr) : (s.afterN k).confirms x = false := by
  obtain ⟨-, htmr⟩ := State.afterN_pending h hst hn ((tickCount_mono s k.le_succ).trans hticks)
  cases htick : (s.inputsAt k).tick with
  | false => simp [State.confirms, htick]
  | true =>
    have hcount := tickCount_succ_of_tick htick
    have hleft : ((s.afterN k).regs.chan x).tmr ≠ 0 := by omega
    simp [State.confirms, State.tz, hleft]

/-! ## A periodic tick -/

/-- Of a tick in every `P`-th cycle, first in cycle `p`, `(n + P - p) / P` have come in the first `n` cycles. -/
theorem tickCount_of_periodic {s : State} {P p N : Nat} (hp1 : 1 ≤ p) (hpP : p ≤ P)
    (hper : ∀ k, k < N → ((s.inputsAt k).tick = true ↔ (k + 1) % P = p % P)) {n : Nat} (hn : n ≤ N) :
    tickCount s n = (n + (P - p)) / P := by
  induction n with
  | zero => rw [tickCount, Nat.zero_add, Nat.div_eq_of_lt (by omega)]
  | succ n ih =>
    have hdvd : P ∣ n + (P - p) + 1 ↔ (s.inputsAt n).tick = true := by
      rw [hper n hn, show n + (P - p) + 1 = n + 1 + P - p by omega, ← Nat.modEq_iff_dvd' (by omega), Nat.ModEq,
        Nat.add_mod_right, eq_comm]
    rw [tickCount, ih (Nat.le_of_lt hn), show n + 1 + (P - p) = n + (P - p) + 1 by omega, Nat.succ_div]
    simp only [hdvd]

/-- Just before the tick of the cycle numbered `m·P + p`, counted from 1, `m` ticks have come. -/
theorem tickCount_of_periodic_mul {s : State} {P q N : Nat} (hq : q + 1 ≤ P)
    (hper : ∀ k, k < N → ((s.inputsAt k).tick = true ↔ (k + 1) % P = (q + 1) % P)) {m : Nat} (hm : m * P + q ≤ N) :
    tickCount s (m * P + q) = m := by
  rw [tickCount_of_periodic (Nat.le_add_left 1 q) hq hper hm, show m * P + q + (P - (q + 1)) = P - 1 + m * P by omega,
    Nat.add_mul_div_right _ _ (by omega), Nat.div_eq_of_lt (by omega), Nat.zero_add]

/-! ## The statements about several cycles -/

/-- Settles O41: a RUN cycle of a pending channel reads `prev_X` only where it is of no consequence, and writes it anew. -/
theorem edgesWhilePendingAreDiscarded : Obligations.EdgesWhilePendingAreDiscarded := by
  intro s x b h hr hst
  refine ⟨?_, s.after, step_eq_after h, State.after_prev hr x⟩
  calc step (s.withPrev x b)
      = .next (s.withPrev x b).after := step_eq_after (State.withPrev_wf x b h)
    _ = .next s.after := by rw [State.withPrev_after x b hr hst]
    _ = step s := (step_eq_after h).symm

/-- Settles O42: RESET and, in a RUN cycle, the fire alone lead to Idle; without ticks the timer is left as it is. -/
theorem pendingEndsOnlyByAFire : Obligations.PendingEndsOnlyByAFire := by
  refine ⟨fun s x h hst => ⟨s.after, step_eq_after h, ?_⟩, fun s x n h hst hn hno => ?_⟩
  · cases hr : s.inputs.rst with
    | true =>
      have hidle : (s.after.regs.chan x).st = .idle := by rw [State.after_chan_of_reset hr]; rfl
      have hreset : .reset ∈ rowsPerformed s := by simp [rowsPerformed, decodeRst_of_reset hr]
      exact iff_of_true hidle (.inr (.inr hreset))
    | false =>
      have hconfirm : .btnConfirm x ∈ rowsPerformed s ↔ _ := btnRow_mem_rowsPerformed_iff hr (r := .confirm)
      have hdrop : .btnDrop x ∈ rowsPerformed s ↔ _ := btnRow_mem_rowsPerformed_iff hr (r := .drop)
      rw [State.after_idle_iff_of_pending hr hst, hconfirm, hdrop, iff_false_intro (reset_notMem_rowsPerformed hr)]
      cases hlvl : s.lvl x <;> simp [State.SelectsBtn, hst, hlvl]
  · have hcount := tickCount_of_no_tick hno
    obtain ⟨hpending, htmr⟩ := State.afterN_pending h hst hn (by rw [hcount]; exact Nat.zero_le _)
    rw [hcount, Nat.sub_zero] at htmr
    exact ⟨_, runCycles_eq_afterN h n, hpending, htmr⟩

/-- Settles O43: the armed channel is pending with `DEBOUNCE_TICKS` in its timer. -/
theorem fireComesAtTheLastTick : Obligations.FireComesAtTheLastTick := by
  intro s s1 x n h hr hst hprev hlvl hstep hn hticks htick
  obtain ⟨-, rfl⟩ := step_eq_next_iff_after.1 hstep
  have h1 := State.after_wf h
  obtain ⟨hpending, htmr⟩ := State.after_armed_of_fall h hr x hst (decodeEdg_fall hprev hlvl)
  rw [← htmr] at hticks ⊢
  have hbound {k : Nat} (hk : k ≤ n) : tickCount s.after k ≤ (s.after.regs.chan x).tmr :=
    (tickCount_mono _ hk).trans hticks.le
  refine ⟨fun k hk => ?_, ?_⟩
  · have hnk := noReset_mono hn (hk.trans n.le_succ)
    obtain ⟨hst', htmr'⟩ := State.afterN_pending h1 hpending hnk (hbound hk)
    exact ⟨_, runCycles_eq_afterN h1 k, hst', htmr', fun hlt => State.afterN_no_confirm h1 hpending hnk (hbound hlt)⟩
  · obtain ⟨hconfirms, hst', htmr'⟩ := State.afterN_fires h1 hpending hn hticks htick
    exact ⟨_, _, runCycles_eq_afterN h1 n, step_eq_after (State.afterN_wf h1 n), hconfirms, hst', htmr'⟩

/-- Settles O44: cycle `DEBOUNCE_TICKS·P + p` after the arming one has a tick, with `DEBOUNCE_TICKS` ticks before it. -/
theorem fireTimingUnderAPeriodicTick : Obligations.FireTimingUnderAPeriodicTick := by
  intro s s1 x P p h hr hst hprev hlvl hstep hp1 hpP hn hper
  obtain ⟨-, rfl⟩ := step_eq_next_iff_after.1 hstep
  have h1 := State.after_wf h
  obtain ⟨hpending, htmr⟩ := State.after_armed_of_fall h hr x hst (decodeEdg_fall hprev hlvl)
  obtain ⟨q, rfl⟩ := Nat.exists_eq_add_of_le' hp1
  have hmul : (s.cfg.debounceTicks + 1) * P = s.cfg.debounceTicks * P + P := Nat.succ_mul ..
  have hlast : s.cfg.debounceTicks * P + q < (s.cfg.debounceTicks + 1) * P := by omega
  have hticks : tickCount s.after (s.cfg.debounceTicks * P + q) = (s.after.regs.chan x).tmr := by
    rw [htmr, tickCount_of_periodic_mul hpP hper hlast.le]
  have htick : (s.after.inputsAt (s.cfg.debounceTicks * P + q)).tick = true := by
    rw [hper _ hlast, Nat.add_assoc, Nat.mul_add_mod_self_right]
  obtain ⟨-, hidle, -⟩ := State.afterN_fires h1 hpending (noReset_mono hn hlast) hticks htick
  refine ⟨s.cfg.debounceTicks * P + q + 1, by omega, hlast, fun k hk => ?_,
    ⟨_, runCycles_eq_afterN h1 _, ChanState.bit_eq_false.2 hidle⟩⟩
  have hk' := Nat.le_of_lt_succ hk
  obtain ⟨hst', -⟩ := State.afterN_pending h1 hpending (noReset_mono hn (hk'.trans hlast.le))
    ((tickCount_mono _ hk').trans hticks.le)
  exact ⟨_, runCycles_eq_afterN h1 k, ChanState.bit_eq_true.2 hst'⟩

/-- Settles O45: the level at the fire is the pin of this cycle, `SYNC_STAGES` cycles earlier (R72). -/
theorem resampleReadsOnePinLevel : Obligations.ResampleReadsOnePinLevel := by
  intro s t x h hn hrun hst htmr htick
  obtain rfl : s.afterN s.cfg.syncStages = t := Host.Outcome.next.inj ((runCycles_eq_afterN h _).symm.trans hrun)
  have hr := State.afterN_rst_of_noReset hn (Nat.lt_succ_self _)
  have hlvl := State.afterN_lvl_sampled h x (noReset_mono hn (Nat.le_succ _))
  refine ⟨?_, _, step_eq_after (State.afterN_wf h _), (State.after_idle_iff_of_pending hr hst).2 ⟨htick, htmr⟩⟩
  rw [State.confirms_of_due hr hst htick htmr, hlvl, Bool.not_eq_true']

/-- Settles O46: the next registers of a channel are a function of its own, the configuration, the tick and its pin. -/
theorem channelsAreIndependent : Obligations.ChannelsAreIndependent := by
  intro s1 s2 x h1 h2 hcfg hchan hrst htick hbtn
  refine ⟨_, _, step_eq_after h1, step_eq_after h2, ?_⟩
  cases hr : s2.inputs.rst with
  | true => rw [State.after_chan_of_reset hr, State.after_chan_of_reset (hrst.trans hr), hcfg]
  | false => rw [State.after_chan hr, State.after_chan (hrst.trans hr), hcfg, hchan, htick, hbtn]

end Sys2Proof.Machine
end

section
/-! SUPPORT. The family of 42_counter.md: the counter functions (O21, O22), the CTR rows (O23, O24), and the one writer of the
Counter (O25). -/

namespace Sys2Proof.Machine

open Sys2Proof

/-! ## The counter functions (R100, R101, R107) -/

section functions
variable {x : Digit}

theorem inc10_toNat_of_le (h : x.toNat ≤ 8) : (inc10 x).toNat = x.toNat + 1 := by
  rw [inc10, if_neg (by omega)]
  bv_omega

theorem inc10_of_ge (h : 9 ≤ x.toNat) : inc10 x = 0 := if_pos h

theorem dec10_toNat_of_pos (h : 1 ≤ x.toNat ∧ x.toNat ≤ 9) : (dec10 x).toNat = x.toNat - 1 := by
  rw [dec10, if_neg (by omega)]
  bv_omega

theorem dec10_of_zero_or_ge (h : x.toNat = 0 ∨ 10 ≤ x.toNat) : dec10 x = 9 := if_pos h

/-- On the digits `inc10` adds 1 modulo `DIGIT_MOD`. -/
theorem inc10_toNat (h : x.toNat ≤ 9) : (inc10 x).toNat = (x.toNat + 1) % 10 := by
  by_cases h9 : 9 ≤ x.toNat
  · have hx : x.toNat = 9 := Nat.le_antisymm h h9
    rw [inc10_of_ge h9, hx]
    rfl
  · rw [inc10_toNat_of_le (by omega)]
    omega

/-- On the digits `dec10` adds 9, which is taking 1, modulo `DIGIT_MOD`. -/
theorem dec10_toNat (h : x.toNat ≤ 9) : (dec10 x).toNat = (x.toNat + 9) % 10 := by
  by_cases h0 : x.toNat = 0
  · rw [dec10_of_zero_or_ge (.inl h0), h0]
    rfl
  · rw [dec10_toNat_of_pos ⟨Nat.pos_of_ne_zero h0, h⟩]
    omega

theorem inc10_dec10 (h : x.toNat ≤ 9) : inc10 (dec10 x) = x :=
  BitVec.eq_of_toNat_eq <| by rw [inc10_toNat (dec10_le x), dec10_toNat h]; omega

theorem dec10_inc10 (h : x.toNat ≤ 9) : dec10 (inc10 x) = x :=
  BitVec.eq_of_toNat_eq <| by rw [dec10_toNat (inc10_le x), inc10_toNat h]; omega

/-- Outside the digits the two updates of `CTR.BOTH` do not cancel: the first gives 0 (R105). -/
theorem dec10_inc10_of_ge (h : 10 ≤ x.toNat) : dec10 (inc10 x) = 9 := by
  rw [inc10_of_ge (by omega)]
  rfl

/-- `n` applications, each adding `k` modulo 10 on the digits, add `n * k`. -/
theorem iterate_toNat {f : Digit → Digit} {k : Nat} (hf : ∀ y : Digit, y.toNat ≤ 9 → (f y).toNat = (y.toNat + k) % 10)
    (h : x.toNat ≤ 9) (n : Nat) : (f^[n] x).toNat = (x.toNat + n * k) % 10 := by
  induction n with
  | zero => rw [Function.iterate_zero_apply]; omega
  | succ n ih =>
    have hle : (f^[n] x).toNat ≤ 9 := by omega
    rw [Function.iterate_succ_apply', hf _ hle, ih, Nat.mod_add_mod, Nat.add_assoc, Nat.succ_mul]

/-- Ten applications, each adding the same number modulo 10, are the identity on the digits. -/
theorem iterate_ten {f : Digit → Digit} {k : Nat} (hf : ∀ y : Digit, y.toNat ≤ 9 → (f y).toNat = (y.toNat + k) % 10)
    (h : x.toNat ≤ 9) : f^[10] x = x :=
  BitVec.eq_of_toNat_eq <| by rw [iterate_toNat hf h]; omega

end functions

/-- Settles O21: each function has one case below its wrap and one at it. -/
theorem counterFunctionsWrap : Obligations.CounterFunctionsWrap :=
  fun _ => ⟨inc10_toNat_of_le, inc10_of_ge, dec10_toNat_of_pos, dec10_of_zero_or_ge⟩

/-- A cycle keeps a digit a digit, whether it is a RESET or a RUN. -/
theorem State.after_digit_le {s : State} (h : s.digit.toNat ≤ 9) : s.after.digit.toNat ≤ 9 := by
  rw [State.digit]
  cases hr : s.inputs.rst with
  | true => rw [State.after_of_reset hr]; exact Nat.zero_le 9
  | false => rw [State.after_ctr hr]; exact counterAfter_le h _ _

theorem step_keeps_digit (s t : State) (h : s.digit.toNat ≤ 9) (hstep : step s = .next t) : t.digit.toNat ≤ 9 := by
  obtain ⟨-, rfl⟩ := step_eq_next_iff_after.1 hstep
  exact State.after_digit_le h

/-- Settles O22: both functions are an addition modulo 10 on the digits, and a run starts at 0. A configuration that is not legal
has no step, so its only run has no cycle. -/
theorem counterFunctionLaws : Obligations.CounterFunctionLaws :=
  ⟨fun _ h => ⟨inc10_toNat h, dec10_toNat h, inc10_dec10 h, dec10_inc10 h, iterate_ten (fun _ => inc10_toNat) h,
      iterate_ten (fun _ => dec10_toNat) h⟩,
    ⟨by decide, by decide, by decide⟩, fun x => ⟨inc10_le x, dec10_le x⟩,
    fun l c _ _ hrun => runCycles_keeps (P := fun s => s.digit.toNat ≤ 9) step_keeps_digit
      (s := startState c l) (Nat.zero_le 9) hrun⟩

/-! ## The CTR rows (R102 to R105) -/

/-- When each CTR row is selected (R54). -/
def State.SelectsCtr (s : State) : CtrRow → Prop
  | .hold => s.work.confA = false ∧ s.work.confB = false
  | .inc => s.work.confA = true ∧ s.work.confB = false
  | .dec => s.work.confA = false ∧ s.work.confB = true
  | .both => s.work.confA = true ∧ s.work.confB = true

section ctrRows
variable (s : State)

theorem decodeCtr_eq_iff (r : CtrRow) : decodeCtr s.ctrWord = r ↔ s.SelectsCtr r := by
  simp only [decodeCtr, State.ctrWord_bits]
  cases r <;> cases hA : s.work.confA <;> cases hB : s.work.confB <;> simp [State.SelectsCtr, hA, hB]

/-- Writing `ctr` is all that a CTR row does. -/
theorem ctrFrame_writeCtr (v : Digit) : CtrFrame s (s.writeCtr v) :=
  ⟨rowFrame_onNxt s _, rfl, rfl, rfl, rfl, rfl, rfl, rfl, rfl⟩

end ctrRows

/-- Settles O23: each row writes its function of the Counter, which is the one the rule writes out. -/
theorem ctrRowsOfOneConfirm : Obligations.CtrRowsOfOneConfirm := by
  intro s h
  exact ⟨decodeCtr_eq_iff s .hold, ⟨ctrHold s, exec_eq_next.2 ⟨h, rfl⟩, rfl, ctrFrame_writeCtr s _⟩,
    decodeCtr_eq_iff s .inc, ⟨ctrInc s, exec_eq_next.2 ⟨h, rfl⟩, ctrFrame_writeCtr s _, rfl⟩,
    decodeCtr_eq_iff s .dec, ⟨ctrDec s, exec_eq_next.2 ⟨h, rfl⟩, ctrFrame_writeCtr s _, rfl⟩⟩

/-- A channel confirms in RUN cycles only (R85). -/
theorem State.rst_of_confirms {s : State} {x : Channel} (h : s.confirms x = true) : s.inputs.rst = false := by
  cases hr : s.inputs.rst with
  | false => rfl
  | true => simp [State.confirms, hr] at h

/-- Settles O24: `dec10` undoes `inc10` on the digits, and in a RUN cycle the two confirms select both updates and a request. -/
theorem bothConfirmsCancel : Obligations.BothConfirmsCancel := by
  intro s h
  refine ⟨decodeCtr_eq_iff s .both,
    ⟨ctrBoth s, exec_eq_next.2 ⟨h, rfl⟩, ctrFrame_writeCtr s _, rfl, fun hd => ⟨dec10_inc10 hd, inc10_dec10 hd⟩,
      dec10_inc10_of_ge⟩,
    fun hA hB => ?_⟩
  have hr := State.rst_of_confirms hA
  rw [State.confirms_of_run hr] at hA hB
  refine ⟨s.after, step_eq_after h, ?_, fun hd => ?_⟩
  · rw [State.after_rndValid hr, hA, Bool.true_or, Bool.true_or]
  · rw [State.after_ctr hr, hA, hB]
    exact dec10_inc10 hd

/-! ## The one writer of the Counter (R106) -/

theorem rndPost_nxt_ctr (s : State) : (rndPost s).work.nxt.ctr = s.work.nxt.ctr := by
  unfold rndPost
  split <;> rfl

/-- No EDG, BTN or RND row writes `ctr`. -/
theorem effectOf_nxt_ctr {i : Instr} (hctr : i.format ≠ .ctr) (hrst : i.format ≠ .rst) (s : State) :
    (effectOf i s).work.nxt.ctr = s.work.nxt.ctr := by
  cases i with
  | reset | run => exact absurd rfl hrst
  | edgFall x | edgLow x | edgHigh x => exact congrArg Regs.ctr (State.driveFall_nxt s x _)
  | btnIdle x | btnArm x | btnWait x | btnCount x | btnConfirm x | btnDrop x =>
    obtain ⟨-, -, -, -, -, -, -, -, hkeep, -⟩ := btnFrame_btnRow s x _ _ _
    exact hkeep
  | ctrHold | ctrInc | ctrDec | ctrBoth => exact absurd rfl hctr
  | rndIdle | rndWait | rndTake => rfl
  | rndPost => exact rndPost_nxt_ctr s

/-- Settles O25: the rows of the other formats keep `ctr`, and a cycle gives it the value its confirms select or the reset value. -/
theorem counterHasOneWriter : Obligations.CounterHasOneWriter := by
  refine ⟨fun i s t hexec hctr hrst => ?_, fun s h => ⟨s.after, step_eq_after h, ?_⟩⟩
  · obtain ⟨-, rfl⟩ := exec_eq_next.1 hexec
    obtain ⟨-, hregs, -, -⟩ := rowFrame_effectOf i hrst s
    exact ⟨congrArg Regs.ctr hregs, effectOf_nxt_ctr hctr hrst s⟩
  · cases hr : s.inputs.rst with
    | true => rw [State.after_of_reset hr]; rfl
    | false => rw [State.after_ctr hr, State.confirms_of_run hr, State.confirms_of_run hr]; rfl

end Sys2Proof.Machine
end

section
/-! SUPPORT. The family of 43_render_request.md: the RND rows (O26, O27), the handshake of a cycle (O28), the last value taken
over one cycle (O49) and in every run (O50, O51), the values taken by a renderer that is always ready (O48), no back-pressure
(O47), and the startup render (O52). -/

namespace Sys2Proof.Machine

open Sys2Proof

/-! ## The RND rows (R111 to R114) -/

/-- When each RND row is selected (R55). -/
def State.SelectsRnd (s : State) : RndRow → Prop
  | .idle => s.upd = false ∧ s.regs.rndValid = false
  | .wait => s.upd = false ∧ s.regs.rndValid = true ∧ s.inputs.rndReady = false
  | .take => s.upd = false ∧ s.regs.rndValid = true ∧ s.inputs.rndReady = true
  | .post => s.upd = true

section rndRows
variable (s : State)

theorem decodeRnd_eq_iff (r : RndRow) : decodeRnd s.rndWord = r ↔ s.SelectsRnd r := by
  simp only [decodeRnd, State.rndWord_bits]
  cases r <;> cases hu : s.upd <;> cases hv : s.regs.rndValid <;> cases hr : s.inputs.rndReady <;>
    simp [State.SelectsRnd, hu, hv, hr]

/-- Writing `rnd_valid` is all that an RND row does, besides what it may hand to the renderer. -/
theorem rndFrame_writeRndValid (taken : Option Digit) (v : Bool) :
    RndFrame s (({ s with lastTaken := taken } : State).writeRndValid v) :=
  ⟨⟨rfl, rfl, rfl, rfl⟩, rfl, rfl, rfl, rfl, rfl, rfl, rfl⟩

/-- `RND.POST` in the form of the other rows: it hands over the old digit where the old request is taken. -/
theorem rndPost_eq : rndPost s =
    ({ s with lastTaken := if s.regs.rndValid = true ∧ s.inputs.rndReady = true then some s.regs.ctr else s.lastTaken } :
      State).writeRndValid true := by
  unfold rndPost
  simp only [Bool.and_eq_true]
  split <;> rfl

end rndRows

/-- Settles O26: the two rows write `rnd_valid` and hand over nothing. -/
theorem rndIdleAndWaitTakeNothing : Obligations.RndIdleAndWaitTakeNothing := by
  intro s h
  exact ⟨decodeRnd_eq_iff s .idle,
    ⟨rndIdle s, exec_eq_next.2 ⟨h, rfl⟩, rfl, rfl, rndFrame_writeRndValid s s.lastTaken false⟩,
    decodeRnd_eq_iff s .wait,
    ⟨rndWait s, exec_eq_next.2 ⟨h, rfl⟩, rfl, rfl, rndFrame_writeRndValid s s.lastTaken true⟩⟩

/-- Settles O27: `RND.TAKE` hands over the Counter of the cycle, `RND.POST` does so where the old request is taken. -/
theorem rndTakeAndPostHandOver : Obligations.RndTakeAndPostHandOver := by
  intro s h
  refine ⟨decodeRnd_eq_iff s .take,
    ⟨rndTake s, exec_eq_next.2 ⟨h, rfl⟩, rfl, rfl, rndFrame_writeRndValid s (some s.digit) false⟩,
    decodeRnd_eq_iff s .post, rndPost s, exec_eq_next.2 ⟨h, rfl⟩, ?_⟩
  rw [rndPost_eq]
  exact ⟨rfl, rndFrame_writeRndValid s _ true, rfl⟩

/-! ## The handshake of a cycle (R110) -/

theorem State.handshake_iff (s : State) :
    s.handshake = true ↔ s.regs.rndValid = true ∧ s.inputs.rndReady = true ∧ s.inputs.rst = false := by
  simp [State.handshake, and_assoc]

/-- A handshake, and nothing else, hands over the Counter of the cycle; RESET makes none. -/
theorem State.after_lastTaken_eq_ite_handshake (s : State) :
    s.after.lastTaken = if s.handshake then some s.regs.ctr else s.lastTaken := by
  cases hr : s.inputs.rst with
  | true => simp [State.after, State.handshake, hr]
  | false => simp [State.after_lastTaken hr, State.handshake, hr]

/-- Settles O28: the signals as R110 defines them, and what a cycle hands over. -/
theorem handshakeTakesTheDigitOfTheCycle : Obligations.HandshakeTakesTheDigitOfTheCycle := by
  intro s h
  obtain ⟨hupd, -, -⟩ := s.rndWord_bits
  exact ⟨rfl, hupd, s.handshake_iff, s.after, step_eq_after h, s.after_lastTaken_eq_ite_handshake⟩

/-! ## The request and the Counter over one cycle, by the confirms -/

section oneCycle
variable {s : State}

theorem State.forall_confirms_eq_false_iff :
    (∀ x, s.confirms x = false) ↔ (s.confirms .A || s.confirms .B) = false := by
  rw [Bool.or_eq_false_iff]
  exact ⟨fun h => ⟨h .A, h .B⟩, fun ⟨hA, hB⟩ => fun | .A => hA | .B => hB⟩

variable (hr : s.inputs.rst = false)
include hr

/-- A request is outstanding after a RUN cycle by an update in it, or by one that was offered and not taken. -/
theorem State.after_rndValid_of_confirms : s.after.regs.rndValid =
    (s.confirms .A || s.confirms .B || (s.regs.rndValid && !s.inputs.rndReady)) := by
  rw [State.after_rndValid hr, State.confirms_of_run hr, State.confirms_of_run hr]

/-- Without a confirm the Counter is held (R102). -/
theorem State.after_digit_of_no_confirm (hno : ∀ x, s.confirms x = false) : s.after.digit = s.digit := by
  have hno' (x : Channel) : s.chanConf x = false := (State.confirms_of_run hr x).symm.trans (hno x)
  rw [State.digit, State.after_ctr hr, hno', hno']
  rfl

end oneCycle

/-! ## The last value taken (R115) -/

/-- A cycle that ends without a request made no update, and took the Counter or had taken it before. -/
theorem State.after_rendererUpToDate {s : State} (h : s.RendererUpToDate) : s.after.RendererUpToDate := by
  intro hdone
  cases hr : s.inputs.rst with
  | true =>
    rw [State.after_of_reset hr] at hdone
    exact absurd hdone (by simp)
  | false =>
    rw [State.after_rndValid_of_confirms hr, Bool.or_eq_false_iff] at hdone
    obtain ⟨hupd, hreq⟩ := hdone
    rw [State.after_digit_of_no_confirm hr (State.forall_confirms_eq_false_iff.2 hupd), State.after_lastTaken hr]
    cases hv : s.regs.rndValid with
    | false => exact h hv
    | true =>
      have hready : s.inputs.rndReady = true := by simpa [hv] using hreq
      rw [hready]
      rfl

/-- Settles O49: the one next state of a state where the renderer is up to date is such a state. -/
theorem lastValueTakenIsTheCounter : Obligations.LastValueTakenIsTheCounter := by
  intro s t h hstep
  obtain ⟨-, rfl⟩ := step_eq_next_iff_after.1 hstep
  exact State.after_rendererUpToDate h

/-- Settles O50: a run starts with a request outstanding (R118), and every step keeps the invariant (O49). -/
theorem renderedDigitIsTheCounterInEveryRun : Obligations.RenderedDigitIsTheCounterInEveryRun := by
  intro c l n t hrun
  have hstart : (startState c l).RendererUpToDate := fun hv => absurd hv (by simp)
  exact runCycles_keeps lastValueTakenIsTheCounter hstart hrun

/-! ## The values taken and the values written over several cycles -/

section severalCycles
variable {s : State} (h : s.wf = true) (n : Nat)
include h

theorem takenIn_succ : takenIn (n + 1) s = s.takes.toList ++ takenIn n s.after := by
  simp only [takenIn, step_eq_after h]

theorem writtenIn_succ : writtenIn (n + 1) s =
    (if s.confirms .A || s.confirms .B then [s.after.digit] else []) ++ writtenIn n s.after := by
  simp only [writtenIn, step_eq_after h]

end severalCycles

/-- The value of an outstanding request. -/
def State.outstanding (s : State) : List Digit := if s.regs.rndValid then [s.digit] else []

section ready
variable {s : State} (hr : s.inputs.rst = false) (hready : s.inputs.rndReady = true)
include hr hready

/-- A ready renderer takes the value outstanding, if there is one. -/
theorem State.takes_of_ready : s.takes.toList = s.outstanding := by
  rw [State.takes, State.handshake, State.outstanding, hr, hready]
  cases s.regs.rndValid <;> rfl

/-- After a cycle with a ready renderer the value outstanding is the one written in it, if there is one. -/
theorem State.after_outstanding_of_ready :
    s.after.outstanding = if s.confirms .A || s.confirms .B then [s.after.digit] else [] := by
  rw [State.outstanding, State.after_rndValid_of_confirms hr, hready, Bool.not_true, Bool.and_false, Bool.or_false]

end ready

/-- Settles O48, by induction on the number of cycles: a cycle takes what is outstanding, and what it writes is outstanding in the
next one. -/
theorem readyRendererTakesEveryValue : Obligations.ReadyRendererTakesEveryValue := by
  intro n s h hn hready
  refine ⟨s.afterN n, runCycles_eq_afterN h n, ?_⟩
  show takenIn n s ++ (s.afterN n).outstanding = s.outstanding ++ writtenIn n s
  induction n generalizing s with
  | zero => exact (List.append_nil _).symm
  | succ n ih =>
    have hr0 := hn 0 n.succ_pos
    have hready0 := hready 0 n.succ_pos
    have hrest : takenIn n s.after ++ (s.after.afterN n).outstanding = s.after.outstanding ++ writtenIn n s.after :=
      ih s.after (State.after_wf h) (fun k hk => by rw [State.after_inputsAt]; exact hn _ (Nat.succ_lt_succ hk))
        (fun k hk => by rw [State.after_inputsAt]; exact hready _ (Nat.succ_lt_succ hk))
    rw [State.afterN_after] at hrest
    rw [takenIn_succ h, writtenIn_succ h, List.append_assoc, hrest, State.takes_of_ready hr0 hready0,
      State.after_outstanding_of_ready hr0 hready0]

/-! ## Cycles without an update -/

/-- No channel confirms in the next `n` cycles. -/
def NoConfirm (s : State) (n : Nat) : Prop := ∀ k, k < n → ∀ x, (s.afterN k).confirms x = false

theorem NoConfirm.mono {s : State} {m n : Nat} (hno : NoConfirm s n) (hle : m ≤ n) : NoConfirm s m :=
  fun k hk => hno k (hk.trans_le hle)

theorem noConfirm_succ (s : State) (n : Nat) :
    NoConfirm s (n + 1) ↔ (∀ x, s.confirms x = false) ∧ NoConfirm s.after n := by
  simp only [NoConfirm, State.afterN_after]
  exact Nat.forall_lt_succ_left

/-- The CTR rows write no value exactly where no channel confirms. -/
theorem writtenIn_eq_nil_iff {s : State} (h : s.wf = true) (n : Nat) : writtenIn n s = [] ↔ NoConfirm s n := by
  induction n generalizing s with
  | zero => exact iff_of_true rfl fun k hk => absurd hk k.not_lt_zero
  | succ n ih =>
    rw [writtenIn_succ h, List.append_eq_nil_iff, ih (State.after_wf h), noConfirm_succ,
      State.forall_confirms_eq_false_iff]
    simp

section noConfirm
variable {s : State} {n : Nat} (hn : noReset s n) (hno : NoConfirm s n)
include hn hno

theorem State.afterN_digit_of_noConfirm : (s.afterN n).digit = s.digit := by
  induction n with
  | zero => rfl
  | succ n ih =>
    rw [State.afterN_succ, State.after_digit_of_no_confirm (State.afterN_rst_of_noReset hn n.lt_succ_self)
      (hno n n.lt_succ_self)]
    exact ih (noReset_mono hn n.le_succ) (hno.mono n.le_succ)

/-- Once the renderer was ready there is no request outstanding any more. -/
theorem State.afterN_withdrawn_of_ready {k : Nat} (hk : k < n) (hready : (s.inputsAt k).rndReady = true) :
    (s.afterN n).regs.rndValid = false := by
  induction n with
  | zero => exact absurd hk k.not_lt_zero
  | succ n ih =>
    have hupd := State.forall_confirms_eq_false_iff.1 (hno n n.lt_succ_self)
    rw [State.afterN_succ, State.after_rndValid_of_confirms (State.afterN_rst_of_noReset hn n.lt_succ_self), hupd,
      Bool.false_or, State.afterN_inputs]
    obtain hlt | rfl := Nat.lt_succ_iff_lt_or_eq.1 hk
    · rw [ih (noReset_mono hn n.le_succ) (hno.mono n.le_succ) hlt, Bool.false_and]
    · rw [hready, Bool.not_true, Bool.and_false]

end noConfirm

/-- Settles O51: the request ends withdrawn, so the value taken last is the Counter (O49), which was held. -/
theorem rendererEndsWithTheFinalCounter : Obligations.RendererEndsWithTheFinalCounter := by
  intro n k s h hup hn hk hready hwritten
  have hno := (writtenIn_eq_nil_iff h n).1 hwritten
  have hrun := runCycles_eq_afterN h n
  have hdone := State.afterN_withdrawn_of_ready hn hno hk hready
  exact ⟨_, hrun, hdone, runCycles_keeps lastValueTakenIsTheCounter hup hrun hdone,
    State.afterN_digit_of_noConfirm hn hno⟩

/-! ## No back-pressure (R116) -/

/-- Settles O47: the next channels and the next Counter are functions of the configuration, the channels, the Counter, `rst`,
`tick` and the pins. -/
theorem rendererExertsNoBackPressure : Obligations.RendererExertsNoBackPressure := by
  intro s1 s2 h1 h2 hcfg hchan hctr hrst htick hbtn
  refine ⟨_, _, step_eq_after h1, step_eq_after h2, ?_⟩
  cases hr : s2.inputs.rst with
  | true =>
    have hregs : s1.after.regs = s2.after.regs := by
      rw [State.after_of_reset hr, State.after_of_reset (hrst.trans hr), hcfg]
    exact ⟨fun x => by rw [hregs], by rw [hregs]⟩
  | false =>
    have hconf (x : Channel) : s1.chanConf x = s2.chanConf x := by
      rw [State.chanConf, State.chanConf, hcfg, hchan, htick]
    refine ⟨fun x => ?_, ?_⟩
    · rw [State.after_chan hr, State.after_chan (hrst.trans hr), hcfg, hchan, htick, hbtn]
    · rw [State.after_ctr hr, State.after_ctr (hrst.trans hr), hconf, hconf, hctr]

/-! ## The startup render (R118) -/

/-- A channel confirms only when it is pending, at a tick, with its timer at 0 (R85). -/
theorem State.due_of_confirms {s : State} {x : Channel} (hc : s.confirms x = true) :
    (s.regs.chan x).st = .pending ∧ s.inputs.tick = true ∧ (s.regs.chan x).tmr = 0 := by
  simp only [State.confirms, Bool.and_eq_true, ChanState.bit_eq_true, State.tz_eq_true] at hc
  obtain ⟨⟨⟨⟨-, hst⟩, htick⟩, htmr⟩, -⟩ := hc
  exact ⟨hst, htick, htmr⟩

theorem State.confirms_of_idle {s : State} {x : Channel} (hst : (s.regs.chan x).st = .idle) : s.confirms x = false := by
  simp [State.confirms, hst]

section startup
variable {s : State} (h : s.wf = true) {x : Channel}
include h

/-- An Idle channel that ends a RUN cycle pending was armed in it, with the whole delay in its timer. -/
theorem State.after_tmr_of_armed (hr : s.inputs.rst = false) (hst : (s.regs.chan x).st = .idle)
    (hpending : (s.after.regs.chan x).st = .pending) : (s.after.regs.chan x).tmr = s.cfg.debounceTicks := by
  have hedge : ((s.regs.chan x).prev && !s.lvl x) = true := by
    simpa [State.after_st hr, Chan.nextSt, hst] using hpending
  have hfall : decodeEdg (s.edgWord x) = .fall := (decodeEdg_eq_fall_iff s x).2 (by simpa using hedge)
  exact (State.after_armed_of_fall h hr x hst hfall).2

/-- A channel that was Idle `n` cycles ago and is pending now still waits for the ticks of its delay that have not come since. -/
theorem State.afterN_waits_of_idle (hst : (s.regs.chan x).st = .idle) {n : Nat} (hn : noReset s n)
    (hpending : ((s.afterN n).regs.chan x).st = .pending) :
    s.cfg.debounceTicks ≤ ((s.afterN n).regs.chan x).tmr + tickCount s n := by
  induction n with
  | zero => simp [hst] at hpending
  | succ n ih =>
    have hr := State.afterN_rst_of_noReset hn n.lt_succ_self
    have hwf := State.afterN_wf h n
    rw [State.afterN_succ] at hpending ⊢
    cases hst' : ((s.afterN n).regs.chan x).st with
    | idle =>
      have htmr := State.after_tmr_of_armed hwf hr hst' hpending
      rw [State.afterN_cfg] at htmr
      omega
    | pending =>
      have hwait := ih (noReset_mono hn n.le_succ) hst'
      have hidle := State.after_idle_iff_of_pending hr hst'
      have htmr := State.after_tmr_of_pending hwf hr hst'
      rw [hpending] at hidle
      rw [htmr, tickCount, State.afterN_inputs]
      cases htick : (s.inputsAt n).tick with
      | false => simpa using hwait
      | true =>
        have hleft : ((s.afterN n).regs.chan x).tmr ≠ 0 := by simpa [htick] using hidle
        simp only [if_true]
        omega

end startup

/-- From Idle, no channel confirms while at most `DEBOUNCE_TICKS` ticks have come. -/
theorem noConfirm_of_idle {s : State} (h : s.wf = true) (hst : ∀ x, (s.regs.chan x).st = .idle) {n : Nat}
    (hn : noReset s n) (hticks : tickCount s n ≤ s.cfg.debounceTicks) : NoConfirm s n := by
  intro k hk x
  rw [← Bool.not_eq_true]
  intro hc
  obtain ⟨hpending, htick, htmr⟩ := State.due_of_confirms hc
  have hwait := State.afterN_waits_of_idle h (hst x) (noReset_mono hn hk.le) hpending
  rw [State.afterN_inputs] at htick
  have hcount := tickCount_succ_of_tick htick
  have hmono : tickCount s (k + 1) ≤ tickCount s n := tickCount_mono s hk
  omega

theorem startState_idle (c : Config) (l : List Inputs) (x : Channel) : ((startState c l).regs.chan x).st = .idle := by
  rw [startState_regs, Regs.reset_chan]
  rfl

/-- Settles O52: the startup request, for 0, is taken in the first cycle, in which both channels are Idle; the Counter is held
until a confirm. -/
theorem startupRenderIsZero : Obligations.StartupRenderIsZero := by
  refine ⟨fun c l hl hr hready => ⟨_, step_eq_after (startState_wf hl l), ?_, ?_⟩,
    fun c l n hl hn hticks => ⟨_, runCycles_eq_afterN (startState_wf hl l) n, ?_⟩⟩
  · have hshake : (startState c l).handshake = true := (State.handshake_iff _).2 ⟨rfl, hready, hr⟩
    rw [State.after_lastTaken_eq_ite_handshake, hshake]
    rfl
  · exact State.after_digit_of_no_confirm hr fun x => State.confirms_of_idle (startState_idle c l x)
  · exact State.afterN_digit_of_noConfirm hn (noConfirm_of_idle (startState_wf hl l) (startState_idle c l) hn hticks)

end Sys2Proof.Machine
end

section
/-! SUPPORT. The family of 60_exceptions.md: every operation completes (O10), the order of the channels (O33), the quiescent state
with both pins high (O57), and the duties of the tick source (O59), the renderer and the reset source (O60). -/

namespace Sys2Proof.Machine

open Sys2Proof

/-! ## Completion and refusals (R120, R121) -/

/-- Settles O10: every operation, and so every step, is an effect behind the one guard. -/
theorem everyRowCompletesAndNothingElseIsRefused : Obligations.EveryRowCompletesAndNothingElseIsRefused := by
  refine ⟨fun i s h => ⟨effectOf i s, exec_eq_next.2 ⟨h, rfl⟩⟩, fun s h => ⟨s.after, step_eq_after h⟩,
    fun s r hstep => ?_⟩
  rw [step, exec_eq_onBlock] at hstep
  exact onBlock_eq_refused.1 hstep

/-! ## The order of the channels (R131) -/

/-- A channel's part of a RUN cycle as three writes, to places of that channel alone, of values that the cycle's registers and
inputs give. -/
theorem channelPhase_eq (x : Channel) (s : State) : channelPhase x s =
    ((s.onChan x fun _ => (s.regs.chan x).next s.cfg s.inputs.tick (s.inputs.btn x)).driveFall x
      ((s.regs.chan x).prev && !s.lvl x)).driveConf x ((s.regs.chan x).conf s.cfg s.inputs.tick) := by
  unfold channelPhase
  rw [edgPhase_eq, btnPhase_eq]
  cases x <;>
    simp [prevLatch, syncShift, State.btnRow, Chan.next, Chan.level, State.lvl, Chan.zextTmr_nextTmr] <;> rfl

/-- The two channels write different places, and neither reads what the other writes. -/
theorem channelPhase_comm (s : State) :
    channelPhase .A (channelPhase .B s) = channelPhase .B (channelPhase .A s) := by
  simp only [channelPhase_eq .A, channelPhase_eq .B]
  rfl

/-- Settles O33: the two channels' parts of the cycle commute. -/
theorem orderOfTheChannelsIsOfNoConsequence : Obligations.OrderOfTheChannelsIsOfNoConsequence := by
  intro s h hr
  rw [channelPhase_comm]
  exact step_of_run h hr

/-! ## The rows of a quiet cycle -/

section rows
variable {s : State} (hr : s.inputs.rst = false)
include hr

/-- The rows of a RUN cycle, each selected by the registers and inputs of the cycle. -/
theorem rowsPerformed_eq_of_run : rowsPerformed s =
    [.run,
      (decodeEdg (s.edgWord .A)).instr .A, (decodeBtn ((edgPhase .A s).btnWord .A)).instr .A,
      (decodeEdg (s.edgWord .B)).instr .B, (decodeBtn ((edgPhase .B s).btnWord .B)).instr .B,
      (decodeCtr (BitVec.ofBool (s.chanConf .A) ++ BitVec.ofBool (s.chanConf .B))).instr,
      (decodeRnd (BitVec.ofBool (s.chanConf .A || s.chanConf .B) ++ BitVec.ofBool s.regs.rndValid ++
        BitVec.ofBool s.inputs.rndReady)).instr] := by
  obtain ⟨hconfA, hconfB⟩ := runRows_confs s
  have hedgA : s.openCycle.edgWord .A = s.edgWord .A := rfl
  have hedgB : (channelPhase .A s.openCycle).edgWord .B = s.edgWord .B := by simp [State.edgWord, State.lvl]
  have hbtnA : (edgPhase .A s.openCycle).btnWord .A = (edgPhase .A s).btnWord .A :=
    edgPhase_btnWord_congr (s := s.openCycle) (t := s) rfl rfl rfl .A
  have hbtnB : (edgPhase .B (channelPhase .A s.openCycle)).btnWord .B = (edgPhase .B s).btnWord .B :=
    edgPhase_btnWord_congr (by simp) (by simp) (by simp) .B
  rw [rowsPerformed_of_run hr, hedgA, hedgB, hbtnA, hbtnB]
  simp [State.ctrWord, State.rndWord, State.upd, ctrPhase_eq, hconfA, hconfB]

/-- With both channels Idle on a level that stays high, and no request, every row is the one that changes nothing. -/
theorem rowsPerformed_of_quiet (hst : ∀ x, (s.regs.chan x).st = .idle) (hlvl : ∀ x, s.lvl x = true)
    (hvalid : s.regs.rndValid = false) :
    rowsPerformed s = [.run, .edgHigh .A, .btnIdle .A, .edgHigh .B, .btnIdle .B, .ctrHold, .rndIdle] := by
  have hbtn (x : Channel) : decodeBtn ((edgPhase x s).btnWord x) = .idle :=
    decodeBtn_idle (by rw [edgPhase_regs, hst]) (by simp [hlvl])
  have hconf (x : Channel) : s.chanConf x = false := by simp [State.chanConf, Chan.conf, hst]
  have hrnd (ready : Bool) : decodeRnd (BitVec.ofBool false ++ BitVec.ofBool false ++ BitVec.ofBool ready) = .idle := by
    cases ready <;> rfl
  rw [rowsPerformed_eq_of_run hr, decodeEdg_high (hlvl .A), decodeEdg_high (hlvl .B), hbtn, hbtn, hconf, hconf, hvalid,
    Bool.or_false, hrnd]
  rfl

end rows

/-! ## The levels a channel has sampled -/

/-- The levels that a channel holds, the oldest first: `prev_X`, then its synchroniser from the last stage to stage 0. -/
def Chan.samples (c : Chan) : List Bool := c.prev :: c.sync.reverse

/-- The level is the last stage of a synchroniser of its width (R72). -/
theorem Chan.sync_eq_dropLast_concat {cfg : Config} {c : Chan} (hlen : c.sync.length = cfg.syncStages)
    (h1 : 1 ≤ cfg.syncStages) : c.sync = c.sync.dropLast ++ [c.level cfg] := by
  have hne : c.sync ≠ [] := List.ne_nil_of_length_pos (by omega)
  have hlast : c.level cfg = c.sync.getLast hne := by
    rw [Chan.level, List.getLast_eq_getElem, List.getD_eq_getElem _ _ (by omega)]
    simp [hlen]
  rw [hlast, List.dropLast_append_getLast]

/-- A RUN cycle drops the oldest sample and takes the pin as the newest (R70, R71). -/
theorem Chan.next_samples {cfg : Config} {c : Chan} (hlen : c.sync.length = cfg.syncStages) (h1 : 1 ≤ cfg.syncStages)
    (tick btn : Bool) : (c.next cfg tick btn).samples = c.samples.tail ++ [btn] := by
  have hnext : (c.next cfg tick btn).samples = c.level cfg :: (shiftIn cfg btn c.sync).reverse := rfl
  have hold : c.samples.tail = (c.sync.dropLast ++ [c.level cfg]).reverse :=
    congrArg List.reverse (Chan.sync_eq_dropLast_concat hlen h1)
  rw [hnext, hold, shiftIn_eq hlen h1]
  simp

/-- With no pulse inside, a channel that has seen a high level sees one now. -/
theorem Chan.NoPulse.level_of_prev {cfg : Config} {c : Chan} (hno : c.NoPulse) (hlen : c.sync.length = cfg.syncStages)
    (h1 : 1 ≤ cfg.syncStages) (hprev : c.prev = true) : c.level cfg = true := by
  have hmem : c.level cfg ∈ c.sync.reverse := by
    rw [Chan.sync_eq_dropLast_concat hlen h1]
    simp
  exact List.rel_of_pairwise_cons hno hmem hprev

/-- A high pin lets no pulse into the synchroniser. -/
theorem Chan.NoPulse.next {cfg : Config} {c : Chan} (hno : c.NoPulse) (hlen : c.sync.length = cfg.syncStages)
    (h1 : 1 ≤ cfg.syncStages) (tick : Bool) : (c.next cfg tick true).NoPulse := by
  show (c.next cfg tick true).samples.Pairwise _
  rw [Chan.next_samples hlen h1]
  exact List.pairwise_append.2
    ⟨hno.tail, List.pairwise_singleton _ _, fun _ _ newer hnewer _ => List.mem_singleton.1 hnewer⟩

/-! ## Quiescence with both pins high (R135) -/

/-- A channel at rest with no falling edge to come from its synchroniser. -/
def Chan.Settled (c : Chan) : Prop := c.st = .idle ∧ c.tmr = 0 ∧ c.NoPulse

/-- The quiescent states with no falling edge to come from a synchroniser. -/
def State.Settled (s : State) : Prop := (∀ x, (s.regs.chan x).Settled) ∧ s.regs.rndValid = false

/-- With its pin high, a settled channel sees no falling edge, so it stays Idle with its timer at 0. -/
theorem Chan.Settled.next {cfg : Config} {c : Chan} (hc : c.Settled) (hlen : c.sync.length = cfg.syncStages)
    (h1 : 1 ≤ cfg.syncStages) (tick : Bool) : (c.next cfg tick true).Settled := by
  obtain ⟨hst, -, hno⟩ := hc
  have hedge : (c.prev && !c.level cfg) = false := by
    cases hprev : c.prev with
    | false => rfl
    | true => rw [hno.level_of_prev hlen h1 hprev]; rfl
  have hidle : (c.next cfg tick true).st = .idle := by simp [Chan.next, Chan.nextSt, hst, hedge]
  exact ⟨hidle, Chan.nextTmr_of_nextSt_idle hidle, hno.next hlen h1 tick⟩

theorem State.settled_of_quiescent {s : State} (hinv : s.Inv) (hq : s.Quiescent) (hA : s.regs.chA.NoPulse)
    (hB : s.regs.chB.NoPulse) : s.Settled := by
  obtain ⟨-, -, ⟨htmrA, -⟩, htmrB, -⟩ := hinv
  obtain ⟨hstA, hstB, hvalid⟩ := hq
  exact ⟨fun | .A => ⟨hstA, htmrA hstA, hA⟩ | .B => ⟨hstB, htmrB hstB, hB⟩, hvalid⟩

section settled
variable {s : State} (hs : s.Settled) (hr : s.inputs.rst = false)
include hs

theorem State.Settled.confirms (x : Channel) : s.confirms x = false := State.confirms_of_idle (hs.1 x).1

include hr

/-- Without a request the renderer takes nothing. -/
theorem State.Settled.after_lastTaken : s.after.lastTaken = s.lastTaken := by
  rw [State.after_lastTaken hr, hs.2]
  rfl

theorem State.Settled.after (h : s.wf = true) (hpins : ∀ x, s.inputs.btn x = true) : s.after.Settled := by
  refine ⟨fun x => ?_, ?_⟩
  · rw [State.after_chan hr, hpins]
    exact (hs.1 x).next (State.wf_chan h x).2 (State.wf_syncStages h) _
  · rw [State.after_rndValid_of_confirms hr, hs.confirms, hs.confirms, hs.2]
    rfl

end settled

/-- A settled state stays one while the pins are high, with the Counter and the last value taken as they were. -/
theorem State.Settled.afterN {s : State} (hs : s.Settled) (h : s.wf = true) {n : Nat} (hn : noReset s n)
    (hpins : ∀ x, releasedFor s x n) :
    (s.afterN n).Settled ∧ (s.afterN n).regs.ctr = s.regs.ctr ∧ (s.afterN n).lastTaken = s.lastTaken := by
  induction n with
  | zero => exact ⟨hs, rfl, rfl⟩
  | succ n ih =>
    obtain ⟨hs', hctr, htaken⟩ := ih (noReset_mono hn n.le_succ) fun x k hk => hpins x k (hk.trans n.lt_succ_self)
    have hr := State.afterN_rst_of_noReset hn n.lt_succ_self
    have hpins' (x : Channel) : (s.afterN n).inputs.btn x = true := by
      rw [State.afterN_inputs]; exact hpins x n n.lt_succ_self
    exact ⟨hs'.after hr (State.afterN_wf h n) hpins', (State.after_digit_of_no_confirm hr hs'.confirms).trans hctr,
      (hs'.after_lastTaken hr).trans htaken⟩

section released
variable {s : State} (h : s.wf = true) (x : Channel) {n : Nat} (hn : noReset s n) (hpin : releasedFor s x n)
include h hn hpin

/-- A pin high for `SYNC_STAGES` cycles fills the synchroniser with 1s (R70). -/
theorem State.afterN_sync_of_released (hle : s.cfg.syncStages ≤ n) :
    ((s.afterN n).regs.chan x).sync = List.replicate s.cfg.syncStages true := by
  have hlen := (State.wf_chan (State.afterN_wf h n) x).2
  rw [State.afterN_cfg] at hlen
  refine List.ext_getElem (by rw [hlen, List.length_replicate]) fun i hi _ => ?_
  obtain ⟨k, rfl⟩ : ∃ k, n = k + 1 + i := ⟨n - 1 - i, by omega⟩
  have hpin' := State.afterN_sync_sampled h x hn (by omega)
  rw [List.getElem?_eq_getElem hi, hpin k (by omega)] at hpin'
  rw [List.getElem_replicate]
  exact Option.some.inj hpin'

theorem State.afterN_lvl_of_released (hle : s.cfg.syncStages ≤ n) : (s.afterN n).lvl x = true := by
  have hstages := State.wf_syncStages h
  rw [State.lvl, State.afterN_sync_of_released h x hn hpin hle, State.afterN_cfg, List.getD_replicate _ (by omega)]

end released

/-- Settles O57: the state stays settled, and `SYNC_STAGES` cycles fill the synchronisers with the pins' 1s, one more `prev_X`. -/
theorem quiescentStateStaysQuiescent : Obligations.QuiescentStateStaysQuiescent := by
  intro s n hinv hq hA hB hn hpinA hpinB
  have h : s.wf = true := hinv.1
  have hpins : ∀ x, releasedFor s x n := fun | .A => hpinA | .B => hpinB
  obtain ⟨⟨hsettled, hvalid⟩, hctr, htaken⟩ := (State.settled_of_quiescent hinv hq hA hB).afterN h hn hpins
  obtain ⟨hstA, htmrA, -⟩ := hsettled .A
  obtain ⟨hstB, htmrB, -⟩ := hsettled .B
  refine ⟨_, runCycles_eq_afterN h n, ⟨hstA, hstB, hvalid⟩, htmrA, htmrB, hctr, htaken, fun hle x => ?_⟩
  have hlvl (y : Channel) := State.afterN_lvl_of_released h y hn (hpins y) (by omega)
  refine ⟨State.afterN_sync_of_released h x hn (hpins x) (by omega), ?_,
    fun hr => rowsPerformed_of_quiet hr (fun y => (hsettled y).1) hlvl hvalid⟩
  obtain ⟨m, rfl⟩ : ∃ m, n = m + 1 := ⟨n - 1, by omega⟩
  rw [State.afterN_succ, State.after_prev (State.afterN_rst_of_noReset hn m.lt_succ_self)]
  exact State.afterN_lvl_of_released h x (noReset_mono hn m.le_succ) (fun k hk => hpins x k (by omega)) (by omega)

/-! ## The tick source's duty (R133) -/

/-- The registers of a cycle are those the cycle before it left. -/
theorem State.onStream_succ_regs (e : InputStream) (s : State) (n : Nat) :
    (s.onStream e (n + 1)).regs = (s.onStream e n).after.regs := rfl

section pendingStream
variable {s : State} (h : s.wf = true) {x : Channel} {e : InputStream}

/-- A channel that is pending in a RUN cycle and in the next did not fire in the first. -/
theorem State.onStream_tmr_ne_zero_of_tick {n : Nat} (hr : (e n).rst = false) (htick : (e n).tick = true)
    (hst : ((s.onStream e n).regs.chan x).st = .pending) (hst' : ((s.onStream e (n + 1)).regs.chan x).st = .pending) :
    ((s.onStream e n).regs.chan x).tmr ≠ 0 := by
  intro htmr
  have hidle := (State.after_idle_iff_of_pending (by rwa [State.onStream_inputs]) hst).2
    ⟨by rwa [State.onStream_inputs], htmr⟩
  rw [State.onStream_succ_regs, hidle] at hst'
  cases hst'

include h

/-- A channel that is pending in a RUN cycle and in the next has counted the tick of the cycle, if there was one. -/
theorem State.onStream_tmr_of_pending {n : Nat} (hr : (e n).rst = false)
    (hst : ((s.onStream e n).regs.chan x).st = .pending) : ((s.onStream e (n + 1)).regs.chan x).tmr =
      ((s.onStream e n).regs.chan x).tmr - if (e n).tick then 1 else 0 := by
  have htmr := State.after_tmr_of_pending (State.onStream_wf h e n) (by rwa [State.onStream_inputs]) hst
  rwa [State.onStream_inputs] at htmr

/-- A channel pending for ever is never reset and never fires; its timer, which cannot fall for ever, stands still from some cycle
on, but the next tick is counted. -/
theorem State.onStream_not_always_pending (hticks : TickDuty e) :
    ¬ ∀ n, ((s.onStream e n).regs.chan x).st = .pending := by
  intro hst
  have hrun (n : Nat) : (e n).rst = false := by
    rw [← Bool.not_eq_true]
    intro hr
    have hreset := State.after_chan_of_reset (s := s.onStream e n) (by rwa [State.onStream_inputs]) x
    have hpending := hst (n + 1)
    rw [State.onStream_succ_regs, hreset] at hpending
    cases hpending
  have htmr (n : Nat) := State.onStream_tmr_of_pending h (hrun n) (hst n)
  have hanti : Antitone fun n => ((s.onStream e n).regs.chan x).tmr :=
    antitone_nat_of_succ_le fun n => (htmr n).trans_le (Nat.sub_le _ _)
  obtain ⟨m, hm⟩ := WellFoundedLT.antitone_chain_condition hanti
  obtain ⟨n, hmn, htick⟩ := hticks m
  have hsame : ((s.onStream e n).regs.chan x).tmr = ((s.onStream e (n + 1)).regs.chan x).tmr :=
    (hm n hmn).symm.trans (hm (n + 1) (hmn.trans n.le_succ))
  have hleft := State.onStream_tmr_ne_zero_of_tick (hrun n) htick (hst n) (hst (n + 1))
  rw [htmr n, htick, if_pos rfl] at hsame
  omega

/-- Without ticks and resets a pending channel stays as it is (R89). -/
theorem State.onStream_pending_of_no_tick (hst : (s.regs.chan x).st = .pending) (hrun : NeverReset e)
    (hno : ∀ k, (e k).tick = false) (n : Nat) : ((s.onStream e n).regs.chan x).st = .pending ∧
      ((s.onStream e n).regs.chan x).tmr = (s.regs.chan x).tmr := by
  induction n with
  | zero => exact ⟨hst, rfl⟩
  | succ n ih =>
    obtain ⟨hpending, htmr⟩ := ih
    constructor
    · rw [State.onStream_succ_regs, ← ChanState.ne_idle_iff, ne_eq,
        State.after_idle_iff_of_pending (by rw [State.onStream_inputs]; exact hrun n) hpending, State.onStream_inputs, hno]
      simp
    · rw [State.onStream_tmr_of_pending h (hrun n) hpending, hno, htmr]
      rfl

end pendingStream

/-- Settles O59: of the cycles in which the channel is not pending take the first; the cycle before it fires or resets (O42). -/
theorem pendingChannelFiresWhileTicksGoOn : Obligations.PendingChannelFiresWhileTicksGoOn := by
  refine ⟨fun s x e h hst hticks => ?_, fun s x e h hst hrun hno n => ?_⟩
  · have hends : ∃ n, ((s.onStream e n).regs.chan x).st ≠ .pending :=
      not_forall.1 (State.onStream_not_always_pending h hticks)
    obtain ⟨n, hn⟩ : ∃ n, Nat.find hends = n + 1 :=
      Nat.exists_eq_succ_of_ne_zero fun h0 => Nat.find_spec hends (h0 ▸ hst)
    have hpending {k : Nat} (hk : k ≤ n) : ((s.onStream e k).regs.chan x).st = .pending :=
      not_not.1 (Nat.find_min hends (by omega))
    have hidle : ((s.onStream e (n + 1)).regs.chan x).st = .idle := by
      have hspec := Nat.find_spec hends
      rwa [hn, ne_eq, ← ChanState.ne_idle_iff, not_not] at hspec
    have hwf := State.onStream_wf h e n
    obtain ⟨hstep, -⟩ := pendingEndsOnlyByAFire
    obtain ⟨t, ht, hfire⟩ := hstep _ x hwf (hpending le_rfl)
    obtain ⟨-, rfl⟩ := step_eq_next_iff_after.1 ht
    refine ⟨n, _, _, cycleOn_eq_onStream h e n, ?_,
      fun k hk => ⟨_, cycleOn_eq_onStream h e k, ChanState.bit_eq_true.2 (hpending hk)⟩,
      cycleOn_eq_onStream h e (n + 1), ChanState.bit_eq_false.2 hidle⟩
    refine (hfire.1 hidle).imp_right (Or.imp_right fun hreset => ?_)
    rw [← Bool.not_eq_false]
    exact fun hr => reset_notMem_rowsPerformed (by rwa [State.onStream_inputs]) hreset
  · obtain ⟨hpending, htmr⟩ := State.onStream_pending_of_no_tick h hst hrun hno n
    exact ⟨_, cycleOn_eq_onStream h e n, ChanState.bit_eq_true.2 hpending, htmr⟩

/-! ## The duties of the renderer and of the reset source (R133) -/

theorem State.onStream_succ_lastTaken (e : InputStream) (s : State) (n : Nat) :
    (s.onStream e (n + 1)).lastTaken = (s.onStream e n).after.lastTaken := rfl

/-- While the renderer is not ready, a request stays and nothing is taken (R112). -/
theorem State.onStream_request_waits {s : State} {e : InputStream} (hvalid : s.regs.rndValid = true) (hrun : NeverReset e)
    {n : Nat} (hready : ∀ k, k < n → (e k).rndReady = false) :
    (s.onStream e n).regs.rndValid = true ∧ (s.onStream e n).lastTaken = s.lastTaken := by
  induction n with
  | zero => exact ⟨hvalid, rfl⟩
  | succ n ih =>
    obtain ⟨hvalid', htaken⟩ := ih fun k hk => hready k (hk.trans n.lt_succ_self)
    have hr : (s.onStream e n).inputs.rst = false := by rw [State.onStream_inputs]; exact hrun n
    have hwait : (s.onStream e n).inputs.rndReady = false := by
      rw [State.onStream_inputs]; exact hready n n.lt_succ_self
    constructor
    · rw [State.onStream_succ_regs, State.after_rndValid hr, hvalid', hwait]
      simp
    · rw [State.onStream_succ_lastTaken, State.after_lastTaken hr, hwait, htaken]
      simp

/-- The next registers are a function of the configuration, the registers and the inputs. -/
theorem State.after_regs_congr {s t : State} (hcfg : s.cfg = t.cfg) (hregs : s.regs = t.regs) (hinputs : s.inputs = t.inputs) :
    s.after.regs = t.after.regs := by
  cases hr : t.inputs.rst with
  | true => rw [State.after_of_reset hr, State.after_of_reset (hinputs ▸ hr), hcfg]
  | false =>
    have hr' : s.inputs.rst = false := hinputs ▸ hr
    have hconf (x : Channel) : s.chanConf x = t.chanConf x := by simp [State.chanConf, hcfg, hregs, hinputs]
    refine Regs.eq_of_chan (fun x => ?_) ?_ ?_
    · rw [State.after_chan hr, State.after_chan hr', hcfg, hregs, hinputs]
    · rw [State.after_ctr hr, State.after_ctr hr', hconf, hconf, hregs]
    · rw [State.after_rndValid hr, State.after_rndValid hr', hconf, hconf, hregs, hinputs]

/-- From a reset in cycle 0 on, the registers do not depend on what they were before it (R142). -/
theorem State.onStream_regs_of_reset {s t : State} {e : InputStream} (hcfg : s.cfg = t.cfg) (hreset : ResetDuty e) (n : Nat) :
    (s.onStream e (n + 1)).regs = (t.onStream e (n + 1)).regs := by
  induction n with
  | zero =>
    have hloaded (u : State) : (u.onStream e 1).regs = Regs.reset u.cfg :=
      State.after_of_reset (s := u.onStream e 0) (by rwa [State.onStream_inputs])
    rw [Nat.zero_add, hloaded, hloaded, hcfg]
  | succ n ih =>
    rw [State.onStream_succ_regs, State.onStream_succ_regs]
    exact State.after_regs_congr (by simp [hcfg]) ih (by simp)

/-- Settles O60: the request waits up to the first cycle with `rnd_ready`, which is a handshake. -/
theorem rendererAndResetDutiesSuffice : Obligations.RendererAndResetDutiesSuffice := by
  refine ⟨fun s e h hvalid hrun hready => ?_, fun s e h hvalid hrun hstall n => ?_,
    fun s1 s2 e h1 h2 hcfg hreset n => ?_⟩
  · have hagain : ∃ n, (e n).rndReady = true := (hready 0).imp fun _ hn => hn.2
    have hwaits {k : Nat} (hk : k ≤ Nat.find hagain) := State.onStream_request_waits hvalid hrun (n := k) fun j hj =>
      Bool.not_eq_true _ ▸ Nat.find_min hagain (hj.trans_le hk)
    obtain ⟨hvalid', -⟩ := hwaits le_rfl
    have hshake : (s.onStream e (Nat.find hagain)).handshake = true := by
      rw [State.handshake_iff, State.onStream_inputs]
      exact ⟨hvalid', Nat.find_spec hagain, hrun _⟩
    refine ⟨_, _, _, cycleOn_eq_onStream h e (Nat.find hagain), hshake,
      fun k hk => ⟨_, cycleOn_eq_onStream h e k, hwaits hk⟩, cycleOn_eq_onStream h e _, ?_⟩
    rw [State.onStream_succ_lastTaken, State.after_lastTaken_eq_ite_handshake, hshake]
    rfl
  · exact ⟨_, cycleOn_eq_onStream h e n, State.onStream_request_waits hvalid hrun fun k _ => hstall k⟩
  · exact ⟨_, _, cycleOn_eq_onStream h1 e _, cycleOn_eq_onStream h2 e _, State.onStream_regs_of_reset hcfg hreset n⟩

end Sys2Proof.Machine
end

section
/-! SUPPORT. The family of 70_reset_and_hazards.md: the state after reset (O11) and the RESET operation (O12). -/

namespace Sys2Proof.Machine

open Sys2Proof

/-! ## The state after reset (10_state.md section 2) -/

/-- The reset values of a channel, written out: the reading of R140 that both statements share. -/
theorem Regs.reset_chan_eq (c : Config) (x : Channel) :
    (Regs.reset c).chan x = { st := .idle, tmr := 0, sync := List.replicate c.syncStages true, prev := true } :=
  Regs.reset_chan c x

@[simp] theorem State.resetWith_regs (c : Config) : (State.resetWith c).regs = Regs.reset c := rfl

/-- Settles O11: the registers are those of `Regs.reset`, in every configuration. -/
theorem resetStateHoldsTheResetValues : Obligations.ResetStateHoldsTheResetValues := by
  refine ⟨rfl, fun c => ⟨rfl, fun x => ?_, Regs.reset_ctr c, Regs.reset_rndValid c, rfl, rfl⟩⟩
  rw [State.resetWith_regs, Regs.reset_chan_eq]
  exact ⟨rfl, rfl, rfl, rfl⟩

/-! ## The RESET operation (R140) -/

@[simp] theorem effectOf_reset_regs (s : State) : (effectOf .reset s).regs = Regs.reset s.cfg := resetRows_nxt s

@[simp] theorem effectOf_reset_lastTaken (s : State) : (effectOf .reset s).lastTaken = s.lastTaken :=
  resetRows_lastTaken s

/-- A cycle with `rst = 1` is no handshake (R110). -/
theorem State.handshake_of_reset {s : State} (hr : s.inputs.rst = true) : s.handshake = false := by
  simp [State.handshake, hr]

/-- A second RESET loads the same registers: they depend on the configuration alone. -/
theorem effectOf_reset_reset_regs (s : State) :
    (effectOf .reset (effectOf .reset s)).regs = (effectOf .reset s).regs := by
  rw [effectOf_reset_regs, effectOf_reset_regs, effectOf_cfg]

/-- Settles O12: RESET loads `Regs.reset` whatever the registers are, and leaves a well-formed state, on which it completes
again; the held button is O40. -/
theorem resetCycleLoadsEveryRegister : Obligations.ResetCycleLoadsEveryRegister := by
  intro s h
  refine ⟨effectOf .reset s, exec_eq_next.2 ⟨h, rfl⟩,
    fun hr => ⟨State.handshake_of_reset hr, step_of_reset h hr⟩, fun x => ?_, ?_, ?_,
    effectOf_reset_lastTaken s, effectOf_cfg .reset s,
    ⟨_, exec_eq_next.2 ⟨effectOf_wf h .reset, rfl⟩, effectOf_reset_reset_regs s⟩,
    fun x hr hheld => (buttonHeldThroughResetArms s x h hr hheld).2⟩
  · rw [effectOf_reset_regs, Regs.reset_chan_eq]
  · rw [effectOf_reset_regs, Regs.reset_ctr]
  · rw [effectOf_reset_regs, Regs.reset_rndValid]

end Sys2Proof.Machine
end

section
/-! SUPPORT. The decoder at written-out words (O3) and the step as the decoded operation (O29). -/

namespace Sys2Proof

/-- Settles O3: each word is one of its format that the match and mask columns of its row select, which is what the decoder
answers by (`decode_eq_ok_iff`). -/
theorem wordsOfTheOpcodeMapDecode : Obligations.WordsOfTheOpcodeMapDecode := by
  unfold Obligations.WordsOfTheOpcodeMapDecode
  and_intros <;> exact decode_eq_ok_iff.2 (by decide)

end Sys2Proof

namespace Sys2Proof.Machine

open Sys2Proof

/-- Read as a byte, the RST word of a state decodes to the operation of the state's next step, on either channel (R51). -/
theorem State.decode_rstWord (s : State) (x : Channel) :
    decode .rst x (s.rstWord.setWidth 8) = .ok (decodeRst s.rstWord).instr :=
  decode_setWidth .rst x s.rstWord

/-- Settles O29: the decoder answers the operation `step` dispatches on, and the one next state is `State.after`. -/
theorem stepRunsTheDecodedOperation : Obligations.StepRunsTheDecodedOperation := by
  refine ⟨fun s x i hdecode => ?_, fun s t hstep => ?_⟩
  · have hi : (decodeRst s.rstWord).instr = i := Except.ok.inj ((s.decode_rstWord x).symm.trans hdecode)
    rw [step, hi]
  · obtain ⟨-, rfl⟩ := step_eq_next_iff_after.1 hstep
    exact ⟨s.after_script, s.after_cycle⟩

end Sys2Proof.Machine
end
